-- ==== Sys2Proof/Word.lean ====
section
/-! DEFINITION. The word and byte of the block: every operand word, register, offset and count is 32 bits wide
(00_scope.md R6, `WORD`), and a buffer holds bytes (10_state.md R27). -/

namespace Sys2Proof

/-- `WORD` of 00_scope.md R6: 32 bits, bit 0 the least significant (R8). -/
abbrev Word := BitVec 32

/-- One byte of a chunk or of the bound buffer. -/
abbrev Byte := BitVec 8

end Sys2Proof
end

