-- ==== Sys2Proof/Config.lean ====
section
/-! DEFINITION. What an implementation fixes (the parameters of 00_scope.md R6) and the free values `draw()` of R10.
The parameters the spec marks OPEN are fields of `Params`; a state carries one `Params`, so a statement about every
state holds for every value of them (log 1). -/

namespace Sys2Proof

/-- `MIN_WIDTH` (00_scope.md R6): the smallest width of one read or write. -/
def minWidth : Nat := 1

/-- `MAX_WIDTH` (00_scope.md R6): the largest width of one read or write. -/
def maxWidth : Nat := 32

/-- The parameters of 00_scope.md R6. The last three are passed to the collaborators and read by no rule of the block;
their 32-bit width is the model's (DESIGN CHOICE, log 16). -/
structure Params where
  /-- `MAX_CAP_BITS`, the largest BitField capacity in bits. -/
  maxCapBits : Nat
  /-- `MAX_CHUNK_BYTES`, the largest chunk in bytes. -/
  maxChunkBytes : Nat
  /-- `DEFAULT_ECC_BYTES`. -/
  defaultEccBytes : Word
  /-- `DEFAULT_SYMBOL_BITS`. -/
  defaultSymbolBits : Word
  /-- `DEFAULT_COLOR_BITS`. -/
  defaultColorBits : Word
  /-- `ECC_BLOCK_SIZE`, opaque. -/
  eccBlockSize : Word
  /-- `DARK_MODE`, opaque. -/
  darkMode : Word
  /-- `COLOR_MODE`, opaque. -/
  colorMode : Word
deriving DecidableEq, Repr, Inhabited

/-- The constraints 00_scope.md R6 puts on the parameters, with the legal range 10_state.md R22 gives `CFG_ECC` and the
condition of 42_engine.md R162 on the two default widths. -/
abbrev Params.Ok (p : Params) : Prop :=
  (32 ≤ p.maxCapBits ∧ p.maxCapBits ≤ 2 ^ 32 - 1) ∧
  (1 ≤ p.maxChunkBytes ∧ p.maxChunkBytes ≤ 2 ^ 29 - 1) ∧
  (1 ≤ p.defaultEccBytes.toNat ∧ p.defaultEccBytes.toNat ≤ 2 ^ 31 - 1) ∧
  (1 ≤ p.defaultSymbolBits.toNat ∧ 1 ≤ p.defaultColorBits.toNat ∧
    p.defaultSymbolBits.toNat + p.defaultColorBits.toNat ≤ 32)

/-- Eight unknown numbers from which the parameters of the machine after reset are made. They have no known value. -/
opaque Config.raw : Nat → Nat

/-- Parameters that meet `Params.Ok` whatever the eight numbers are; every legal choice is the value at some numbers. -/
def Params.ofRaw (r : Nat → Nat) : Params :=
  let symbolBits := r 3 % 31 + 1
  { maxCapBits := r 0 % (2 ^ 32 - 32) + 32
    maxChunkBytes := r 1 % (2 ^ 29 - 1) + 1
    defaultEccBytes := BitVec.ofNat 32 (r 2 % (2 ^ 31 - 1) + 1)
    defaultSymbolBits := BitVec.ofNat 32 symbolBits
    defaultColorBits := BitVec.ofNat 32 (r 4 % (32 - symbolBits) + 1)
    eccBlockSize := BitVec.ofNat 32 (r 5)
    darkMode := BitVec.ofNat 32 (r 6)
    colorMode := BitVec.ofNat 32 (r 7) }

/-- The parameters of the machine that `State.reset` describes: legal, otherwise unknown (log 1). -/
def Config.params : Params := Params.ofRaw Config.raw

/-- `draw()` of 32 bits (00_scope.md R10): the value of the `n`-th draw, unconstrained (log 7). -/
opaque Config.drawWord : Nat → Word

/-- `draw()` of the one-bit register `FLAG` (10_state.md R24): the value of the `n`-th draw, unconstrained (log 7). -/
opaque Config.drawFlag : Nat → Bool

end Sys2Proof
end

