-- ==== Sys2Proof/Syntax.lean ====
section
/-! DEFINITION. The nine commands of 30_encoding.md R84, one constructor per row of spec/opcode_table.json, each with the
operands its row reads. Widths are the 6-bit field `W` (R85: 0 .. 63 all decode); other operands are 32-bit words. -/

namespace Sys2Proof

/-- A decoded command. -/
inductive Instr where
  /-- `BF_INIT cap` (40_bitfield.md R104). -/
  | bfInit (cap : Word)
  /-- `BF_WRITE v, o, w` (40_bitfield.md R105). -/
  | bfWrite (v o : Word) (w : BitVec 6)
  /-- `BF_READ o, w` (40_bitfield.md R106). -/
  | bfRead (o : Word) (w : BitVec 6)
  /-- `BC_REBIND n, bytes` (41_bitcursor.md R133); the byte count `n` is the number of payload bytes (30_encoding.md R83). -/
  | bcRebind (payload : List Byte)
  /-- `BC_READ w` (41_bitcursor.md R136). -/
  | bcRead (w : BitVec 6)
  /-- `BC_EXHAUSTED` (41_bitcursor.md R140). -/
  | bcExhausted
  /-- `ENC_CONFIG ecc, bps, bpc` (42_engine.md R161), three signed words. -/
  | encConfig (ecc bps bpc : Word)
  /-- `ENC_FRAME cap, canvas` (42_engine.md R170). -/
  | encFrame (cap canvas : Word)
  /-- `STATE_READ r` (43_state_access.md R221). -/
  | stateRead (r : Word)
deriving DecidableEq, Repr

end Sys2Proof
end

