-- ==== Sys2Proof/WellFormed.lean ====
section
/-! DEFINITION. Which commands can stand on the command port: the byte count of `BC_REBIND` is an unsigned 32-bit operand
(30_encoding.md R86), so a payload holds fewer than 2^32 bytes. Every other operand is bounded by its type. -/

namespace Sys2Proof

/-- The command has an encoding. -/
abbrev Instr.WellFormed : Instr → Prop
  | .bcRebind payload => payload.length < 2 ^ 32
  | .bfInit _ | .bfWrite _ _ _ | .bfRead _ _ | .bcRead _ | .bcExhausted
  | .encConfig _ _ _ | .encFrame _ _ | .stateRead _ => True

end Sys2Proof
end

