-- ==== Sys2Proof/Decode.lean ====
section
/-! DEFINITION. The command transaction (30_encoding.md R80 to R83), its decoder and encoder. The opcode map R84 is the one
table `Op.code`, `Op.takesWidth`; the decoder and the encoder are both written over it. -/

namespace Sys2Proof

/-- One transaction on the command port (30_encoding.md R80). -/
structure Transaction where
  cmd : Word
  op0 : Word
  op1 : Word
  op2 : Word
  payload : List Byte
deriving DecidableEq, Repr

/-- `OPC = CMD[31:24]` (30_encoding.md R81). -/
def Transaction.opc (t : Transaction) : BitVec 8 := t.cmd.extractLsb' 24 8

/-- `RSV = CMD[23:6]` (30_encoding.md R81). -/
def Transaction.rsv (t : Transaction) : BitVec 18 := t.cmd.extractLsb' 6 18

/-- `W = CMD[5:0]` (30_encoding.md R81). -/
def Transaction.width (t : Transaction) : BitVec 6 := t.cmd.extractLsb' 0 6

/-- The rows of the opcode map (30_encoding.md R84). -/
inductive Op where
  | bfInit | bfWrite | bfRead | bcRebind | bcRead | bcExhausted | encConfig | encFrame | stateRead
deriving DecidableEq, Repr

/-- Column `OPC` of 30_encoding.md R84. -/
def Op.code : Op → BitVec 8
  | .bfInit => 0x01#8
  | .bfWrite => 0x02#8
  | .bfRead => 0x03#8
  | .bcRebind => 0x11#8
  | .bcRead => 0x12#8
  | .bcExhausted => 0x13#8
  | .encConfig => 0x21#8
  | .encFrame => 0x22#8
  | .stateRead => 0x31#8

/-- Column `W` of 30_encoding.md R84: whether the row has a width; otherwise the field must be 0. -/
def Op.takesWidth : Op → Bool
  | .bfWrite | .bfRead | .bcRead => true
  | .bfInit | .bcRebind | .bcExhausted | .encConfig | .encFrame | .stateRead => false

/-- All rows, in the table's order. -/
def Op.all : List Op :=
  [.bfInit, .bfWrite, .bfRead, .bcRebind, .bcRead, .bcExhausted, .encConfig, .encFrame, .stateRead]

/-- The row with a given opcode, if there is one. -/
def Op.ofCode (c : BitVec 8) : Option Op := Op.all.find? fun op => op.code == c

/-- Why a transaction is rejected. The first three are the illegal command words of 30_encoding.md R87. -/
inductive DecodeError where
  /-- R87 (a): `OPC` is none of the nine values. -/
  | unknownOpcode
  /-- R87 (b): `RSV` is not 0. -/
  | reservedBits
  /-- R87 (c): `W` is not 0 on a command without a width. -/
  | widthNotZero
  /-- A `BC_REBIND` whose payload is not `OP0` bytes long: no transaction of R83 (log 8). -/
  | payloadLength
deriving DecidableEq, Repr

/-- What the decoder answers: a command, or a rejection by name. -/
inductive Decoded where
  | instr (i : Instr)
  | rejected (e : DecodeError)
deriving DecidableEq, Repr

/-- The operands of a legal command word (columns `W`, `OP0` .. `PAYLOAD` of 30_encoding.md R84). Operand words a row does
not read are ignored (R82). -/
def decodeOperands (op : Op) (t : Transaction) : Decoded :=
  match op with
  | .bfInit => .instr (.bfInit t.op0)
  | .bfWrite => .instr (.bfWrite t.op0 t.op1 t.width)
  | .bfRead => .instr (.bfRead t.op1 t.width)
  | .bcRebind => if t.payload.length = t.op0.toNat then .instr (.bcRebind t.payload) else .rejected .payloadLength
  | .bcRead => .instr (.bcRead t.width)
  | .bcExhausted => .instr .bcExhausted
  | .encConfig => .instr (.encConfig t.op0 t.op1 t.op2)
  | .encFrame => .instr (.encFrame t.op0 t.op1)
  | .stateRead => .instr (.stateRead t.op0)

/-- The decoder (30_encoding.md R81 to R88), total on every transaction. -/
def decode (t : Transaction) : Decoded :=
  match Op.ofCode t.opc with
  | none => .rejected .unknownOpcode
  | some op =>
    if t.rsv ≠ 0#18 then .rejected .reservedBits
    else if !op.takesWidth && t.width != 0#6 then .rejected .widthNotZero
    else decodeOperands op t

/-- Whether the command word is illegal (30_encoding.md R87). -/
def Transaction.illegal (t : Transaction) : Bool :=
  match Op.ofCode t.opc with
  | none => true
  | some op => t.rsv != 0#18 || (!op.takesWidth && t.width != 0#6)

/-- The command word of a row (30_encoding.md R81): opcode, 18 reserved zeros, width. -/
def commandWord (op : Op) (w : BitVec 6) : Word := op.code ++ 0#18 ++ w

/-- The row a command belongs to. -/
def Instr.op : Instr → Op
  | .bfInit _ => .bfInit
  | .bfWrite _ _ _ => .bfWrite
  | .bfRead _ _ => .bfRead
  | .bcRebind _ => .bcRebind
  | .bcRead _ => .bcRead
  | .bcExhausted => .bcExhausted
  | .encConfig _ _ _ => .encConfig
  | .encFrame _ _ => .encFrame
  | .stateRead _ => .stateRead

/-- The encoder (30_encoding.md R84, R89): operand words a command does not name are 0. -/
def encode (i : Instr) : Transaction :=
  match i with
  | .bfInit cap => ⟨commandWord .bfInit 0#6, cap, 0#32, 0#32, []⟩
  | .bfWrite v o w => ⟨commandWord .bfWrite w, v, o, 0#32, []⟩
  | .bfRead o w => ⟨commandWord .bfRead w, 0#32, o, 0#32, []⟩
  | .bcRebind payload => ⟨commandWord .bcRebind 0#6, BitVec.ofNat 32 payload.length, 0#32, 0#32, payload⟩
  | .bcRead w => ⟨commandWord .bcRead w, 0#32, 0#32, 0#32, []⟩
  | .bcExhausted => ⟨commandWord .bcExhausted 0#6, 0#32, 0#32, 0#32, []⟩
  | .encConfig ecc bps bpc => ⟨commandWord .encConfig 0#6, ecc, bps, bpc, []⟩
  | .encFrame cap canvas => ⟨commandWord .encFrame 0#6, cap, canvas, 0#32, []⟩
  | .stateRead r => ⟨commandWord .stateRead 0#6, r, 0#32, 0#32, []⟩

/-- The transaction whose first `nbits` bits are `w`: bits 31..0 are `CMD`, then `OP0`, `OP1`, `OP2`; every further bit,
and every payload byte `OP0` asks for (30_encoding.md R83), is 0. -/
def Transaction.ofBits (nbits w : Nat) : Transaction :=
  let v := w % 2 ^ nbits
  let cmd := BitVec.ofNat 32 v
  let op0 := BitVec.ofNat 32 (v >>> 32)
  { cmd := cmd
    op0 := op0
    op1 := BitVec.ofNat 32 (v >>> 64)
    op2 := BitVec.ofNat 32 (v >>> 96)
    payload := if cmd.extractLsb' 24 8 = Op.bcRebind.code then List.replicate op0.toNat 0#8 else [] }

/-- The command the decoder reads from a transaction given by its bits, as the opcode table numbers them. -/
def decodeTableWord (nbits w : Nat) : Option Instr :=
  match decode (Transaction.ofBits nbits w) with
  | .instr i => some i
  | .rejected _ => none

end Sys2Proof
end

