-- ==== Sys2Proof/Machine/State.lean ====
section
/-! DEFINITION. The state of the block: every register and array of 10_state.md R22 to R34, then the model's own fields
(the command port, the turns, the collaborators' answers and the events sent to them, the draw counter). Plain data. -/

namespace Sys2Proof.Machine

/-- `ENG` (10_state.md R28). -/
inductive Eng where
  | idle | pull | fill | drain
deriving DecidableEq, Repr

/-- `PHASE` (10_state.md R29); the value 3 is never held. -/
inductive Phase where
  | fillSymbols | fillColors | complete
deriving DecidableEq, Repr

/-- `FRAME_STATUS` (10_state.md R32). -/
inductive FrameStatus where
  | noneYet | frame | endOfStream | busy
deriving DecidableEq, Repr

/-- The nine fault causes (60_exceptions.md R230). -/
inductive Cause where
  | illegalCmd | bfWidth | bfBounds | bfUninit | bcWidth | bcUnbound | badConfig | badCapacity | badChunk
deriving DecidableEq, Repr

/-- Who takes a step (00_scope.md R5): the host, the engine, or the reset input (70_reset_and_hazards.md R260). -/
inductive Turn where
  | host | engine | reset
deriving DecidableEq, Repr

/-- An event the block sends to a collaborator (42_engine.md R170, R190, R191). -/
inductive ExtEvent where
  /-- `ext.IMG_OPEN(BPS, BPC, DARK_MODE, COLOR_MODE, canvas)`. -/
  | imgOpen (bps bpc darkMode colorMode canvas : Word)
  /-- `ext.FEC_OPEN(CFG_ECC, ECC_BLOCK_SIZE)`. -/
  | fecOpen (ecc eccBlockSize : Word)
  /-- `ext.IMG_WRITE(cell)`. -/
  | imgWrite (cell : Word)
deriving DecidableEq, Repr

/-- The collaborators' answers still to come, oldest first (42_engine.md R190, R192; log 4). An empty list is a query not
answered yet. -/
structure Oracles where
  /-- Answers of `ext.SRC_GOOD()`. -/
  srcGood : List Bool
  /-- Answers of `ext.FEC_GOOD()`. -/
  fecGood : List Bool
  /-- Answers of `ext.FEC_READSOME()` (32 bits: log 18). -/
  fecCount : List Word
  /-- The protected stream: `ext.FEC_BUFFER(n)` is its next `n` bytes. -/
  fecStream : List Byte
deriving DecidableEq, Repr

/-- The bits of `FIELD` that are 1, as (bit offset, bit) pairs; an unlisted bit is 0, as 40_bitfield.md R104 initialises it
(log 13). -/
abbrev Memory := List (Nat × Bool)

/-- The one canonical form: offsets strictly rising, and no entry equal to what an unlisted bit reads as. -/
abbrev Memory.wf (m : Memory) : Prop := m.Pairwise (fun a b => a.1 < b.1) ∧ ∀ c ∈ m, c.2 = true

/-- The whole state. -/
structure State where
  /-- The parameters of 00_scope.md R6: fixed for the machine, written by no step (log 1). -/
  params : Params
  /-- `CFG_ECC` (10_state.md R22). -/
  cfgEcc : Word
  /-- `CFG_BPS` (10_state.md R22). -/
  cfgBps : Word
  /-- `CFG_BPC` (10_state.md R22). -/
  cfgBpc : Word
  /-- `BF_VALID` (10_state.md R26). -/
  bfValid : Bool
  /-- `BF_CAP` (10_state.md R26). -/
  bfCap : Word
  /-- `FIELD` (10_state.md R26). -/
  field : Memory
  /-- `BC_BOUND` (10_state.md R27). -/
  bcBound : Bool
  /-- `BC_LEN` (10_state.md R27). -/
  bcLen : Word
  /-- `BC_CUR` (10_state.md R27). -/
  bcCur : Word
  /-- `BUF` (10_state.md R27). -/
  buf : List Byte
  /-- `ENG` (10_state.md R28). -/
  eng : Eng
  /-- `PHASE` (10_state.md R29). -/
  phase : Phase
  /-- `POS` (10_state.md R30). -/
  pos : Word
  /-- `DPOS` (10_state.md R31). -/
  dpos : Word
  /-- `FRAME_STATUS` (10_state.md R32). -/
  frameStatus : FrameStatus
  /-- `CELL_COUNT` (10_state.md R33). -/
  cellCount : Word
  /-- `RES` (10_state.md R24). -/
  res : Word
  /-- `FLAG` (10_state.md R24, R25). -/
  flag : Bool
  /-- `FAULT` (10_state.md R34). -/
  fault : Word
  /-- `FAULT_INFO` (10_state.md R34). -/
  faultInfo : Word
  /-- Model's own: a command has written `RES` since reset (10_state.md R24; log 6). -/
  resWritten : Bool
  /-- Model's own: a command has written `FLAG` since reset (10_state.md R24; log 6). -/
  flagWritten : Bool
  /-- Model's own: how many free values have been drawn (log 7). -/
  draws : Nat
  /-- Model's own: the commands on the command port, oldest first (30_encoding.md R80; log 2). -/
  port : List Transaction
  /-- Model's own: who takes the coming steps; when none is listed, the engine while it is enabled, else the host (log 3). -/
  turns : List Turn
  /-- Model's own: the collaborators' answers still to come (log 4). -/
  oracles : Oracles
  /-- Model's own: the events sent to the collaborators, oldest first (log 5). -/
  events : List ExtEvent
deriving DecidableEq, Repr

/-- Why the MODEL stops: an engine step outside the range in which the spec defines the primitive it uses. The block's own
faults (60_exceptions.md R231) are next states, not these. -/
inductive Fault where
  /-- Raised by a `FILL` step whose `CursorRead` has no bound buffer or a width outside 1 .. 32 (41_bitcursor.md R132 defines
  it for neither). Safe: the model stops, and 42_engine.md R202 says no run gets there (log 9). -/
  | cursorContract
  /-- Raised by a `FILL` or `DRAIN` step whose `FieldWrite` or `FieldRead` reaches past `BF_CAP` or has a width outside
  1 .. 32 (40_bitfield.md R101, R102 define it for neither). Safe: as above (log 9). -/
  | fieldContract
deriving DecidableEq, Repr

/-- Why the model gives no meaning. -/
inductive Refusal where
  /-- Raised by `exec` for a command that has no meaning yet. Safe: the model stops. No arm raises it now. -/
  | notModelled (mnemonic : String)
  /-- Raised when the accepted transaction is a `BC_REBIND` whose payload is not `OP0` bytes long, which is no transaction of
  30_encoding.md R83. Safe: the model stops (log 8). -/
  | payloadLength
deriving DecidableEq, Repr

/-- The outcome of one step of this machine. -/
abbrev Result := Host.Outcome State Fault Refusal

/-- The state after reset of a block with given parameters (70_reset_and_hazards.md R260). `RES` and `FLAG` are unspecified
there: their fields hold 0 (DESIGN CHOICE, unsafe, log 6) and are marked unwritten, so that a read draws. -/
def State.resetWith (p : Params) : State :=
  { params := p
    cfgEcc := p.defaultEccBytes
    cfgBps := p.defaultSymbolBits
    cfgBpc := p.defaultColorBits
    bfValid := false
    bfCap := 0#32
    field := []
    bcBound := false
    bcLen := 0#32
    bcCur := 0#32
    buf := []
    eng := .idle
    phase := .fillSymbols
    pos := 0#32
    dpos := 0#32
    frameStatus := .noneYet
    cellCount := 0#32
    res := 0#32
    flag := false
    fault := 0#32
    faultInfo := 0#32
    resWritten := false
    flagWritten := false
    draws := 0
    port := []
    turns := []
    oracles := ⟨[], [], [], []⟩
    events := [] }

/-- The machine right after reset, with the unknown legal parameters of `Config.params`. -/
def State.reset : State := State.resetWith Config.params

end Sys2Proof.Machine
end

