-- ==== Sys2Proof/Machine/Flags.lean ====
section
/-! DEFINITION. `RES`, `FLAG`, the layout of `FAULT`, the cause codes, and the numbers the enumerated registers read as. -/

namespace Sys2Proof.Machine

/-- The number `ENG` reads as (10_state.md R28). -/
def Eng.code : Eng → Nat
  | .idle => 0
  | .pull => 1
  | .fill => 2
  | .drain => 3

/-- The number `PHASE` reads as (10_state.md R29). -/
def Phase.code : Phase → Nat
  | .fillSymbols => 0
  | .fillColors => 1
  | .complete => 2

/-- The number `FRAME_STATUS` reads as (10_state.md R32). -/
def FrameStatus.code : FrameStatus → Nat
  | .noneYet => 0
  | .frame => 1
  | .endOfStream => 2
  | .busy => 3

/-- The cause codes of 60_exceptions.md R230. -/
def Cause.code : Cause → BitVec 8
  | .illegalCmd => 0x01#8
  | .bfWidth => 0x02#8
  | .bfBounds => 0x03#8
  | .bfUninit => 0x04#8
  | .bcWidth => 0x05#8
  | .bcUnbound => 0x06#8
  | .badConfig => 0x07#8
  | .badCapacity => 0x08#8
  | .badChunk => 0x09#8

/-- The word recorded in `FAULT` (10_state.md R34): V = 1, E, fourteen reserved zeros, OPC, CAUSE. -/
def faultWord (engine : Bool) (opc : BitVec 8) (cause : Cause) : Word :=
  1#1 ++ BitVec.ofBool engine ++ 0#14 ++ opc ++ cause.code

/-- `FAULT.V` (10_state.md R34): the block is halted (60_exceptions.md R233). -/
def State.halted (s : State) : Bool := s.fault.getLsbD 31

/-- A command writes `RES` (10_state.md R24). -/
def State.setRes (v : Word) (s : State) : State := { s with res := v, resWritten := true }

/-- A command writes `FLAG` (10_state.md R24, R25). -/
def State.setFlag (b : Bool) (s : State) : State := { s with flag := b, flagWritten := true }

/-- `Exhausted()` (41_bitcursor.md R134): no bit of the buffer remains. -/
def State.exhausted (s : State) : Bool := decide (8 * s.bcLen.toNat ≤ s.bcCur.toNat)

/-- Whether a cursor read of `w` bits is partial (41_bitcursor.md R132): fewer than `w` bits remain. -/
def State.partialRead (w : Nat) (s : State) : Bool := decide (8 * s.bcLen.toNat - s.bcCur.toNat < w)

end Sys2Proof.Machine
end

