-- ==== Sys2Proof/Machine/Operands.lean ====
section
/-! DEFINITION. The operand forms of 30_encoding.md R85, R86, the checks every command makes on its operands, and the frame
geometry of 00_scope.md R12. Comparisons are on unbounded numbers (00_scope.md R7). -/

namespace Sys2Proof.Machine

/-- What a failed check raises: a cause and the value for `FAULT_INFO` (60_exceptions.md R230). -/
structure Raise where
  cause : Cause
  info : Word
deriving DecidableEq, Repr

/-- Whether a width is in `1 .. 32` (00_scope.md R6, 20_memory.md R66). -/
def widthOk (w : Nat) : Bool := decide (minWidth ≤ w) && decide (w ≤ maxWidth)

/-- A signed operand of `ENC_CONFIG` (30_encoding.md R86), replaced by its default when it is not positive (42_engine.md R161). -/
def orDefault (x dflt : Word) : Word := if x.toInt ≤ 0 then dflt else x

/-- `Valid(bps, bpc)` (42_engine.md R162). -/
def validConfig (bps bpc : Nat) : Bool := decide (1 ≤ bps) && decide (1 ≤ bpc) && decide (bps + bpc ≤ 32)

/-- `BPO` (10_state.md R22, 00_scope.md R12). -/
def State.bpo (s : State) : Nat := s.cfgBps.toNat + s.cfgBpc.toNat

/-- `STRIPES = CAP div BPO` (00_scope.md R12). -/
def State.stripes (s : State) : Nat := s.bfCap.toNat / s.bpo

/-- The stripe limit `S = STRIPES * BPO` (00_scope.md R12). -/
def State.stripeLimit (s : State) : Nat := s.stripes * s.bpo

/-- `BfCheck(o, w)` (40_bitfield.md R103): the first failing check, in the order of 60_exceptions.md R232. -/
def bfCheck (o w : Nat) (s : State) : Option Raise :=
  if s.bfValid = false then some ⟨.bfUninit, 0#32⟩
  else if widthOk w = false then some ⟨.bfWidth, BitVec.ofNat 32 w⟩
  else if s.bfCap.toNat < o + w then some ⟨.bfBounds, BitVec.ofNat 32 o⟩
  else none

/-- `BcCheck(w)` (41_bitcursor.md R137). -/
def bcCheck (w : Nat) (s : State) : Option Raise :=
  if s.bcBound = false then some ⟨.bcUnbound, 0#32⟩
  else if widthOk w = false then some ⟨.bcWidth, BitVec.ofNat 32 w⟩
  else none

/-- The check of `BC_EXHAUSTED` (41_bitcursor.md R140). -/
def boundCheck (s : State) : Option Raise :=
  if s.bcBound = false then some ⟨.bcUnbound, 0#32⟩ else none

/-- The capacity check of `BF_INIT` (40_bitfield.md R104). -/
def initCheck (cap : Word) (s : State) : Option Raise :=
  if cap.toNat = 0 ∨ s.params.maxCapBits < cap.toNat then some ⟨.badCapacity, cap⟩ else none

/-- The chunk check of `BC_REBIND` (41_bitcursor.md R133) and of a `PULL` step (42_engine.md R181). -/
def chunkCheck (n : Nat) (s : State) : Option Raise :=
  if s.params.maxChunkBytes < n then some ⟨.badChunk, BitVec.ofNat 32 n⟩ else none

/-- The check of `ENC_CONFIG`, on the values after fallback (42_engine.md R161). -/
def configCheck (bps bpc : Word) : Option Raise :=
  if validConfig bps.toNat bpc.toNat then none else some ⟨.badConfig, BitVec.ofNat 32 (bps.toNat + bpc.toNat)⟩

/-- The capacity check of `ENC_FRAME` (42_engine.md R170, R171). -/
def frameCheck (cap : Word) (s : State) : Option Raise :=
  if cap.toNat < s.bpo ∨ s.params.maxCapBits < cap.toNat then some ⟨.badCapacity, cap⟩ else none

end Sys2Proof.Machine
end

