-- ==== Sys2Proof/Machine/Ops.lean ====
section
/-! DEFINITION. The named operations over the bit spaces and registers: the bits of `FIELD` and `BUF`, `FieldRead`,
`FieldWrite`, `Bind`, `CursorRead`, `draw()`, `raise Fault`, the start and the end of a frame, reset. -/

namespace Sys2Proof.Machine

/-- One bit of `FIELD` (00_scope.md R10); an unlisted bit is 0. -/
def Memory.read : Memory → Nat → Bool
  | [], _ => false
  | (a, x) :: m, i => if i = a then x else Memory.read m i

/-- `FIELD[i] <- b` (00_scope.md R10), keeping the canonical form. -/
def Memory.write : Memory → Nat → Bool → Memory
  | [], i, b => if b then [(i, true)] else []
  | (a, x) :: m, i, b =>
    if i < a then (if b then (i, true) :: (a, x) :: m else (a, x) :: m)
    else if i = a then (if b then (a, true) :: m else m)
    else (a, x) :: Memory.write m i b

/-- The sum of 40_bitfield.md R101: `FIELD[o]` is the most significant of the `w` bits. -/
def Memory.readBits (m : Memory) (o : Nat) : Nat → Nat
  | 0 => 0
  | w + 1 => (m.read o).toNat * 2 ^ w + Memory.readBits m (o + 1) w

/-- The loop of 40_bitfield.md R102: `FIELD[o+j] <- v[w-1-j]` for `j` in `0 .. w-1`. -/
def Memory.writeBits (m : Memory) (o : Nat) (v : Nat) : Nat → Memory
  | 0 => m
  | w + 1 => Memory.writeBits (m.write o (v.testBit w)) (o + 1) v w

/-- `BufBit(i) = BUF[i div 8][7 - (i mod 8)]` (20_memory.md R61). -/
def bufBit (buf : List Byte) (i : Nat) : Bool := (buf.getD (i / 8) 0#8).getLsbD (7 - i % 8)

/-- The sum of 20_memory.md R61: the `w` bits from bit index `c` on, first bit most significant. -/
def bufBits (buf : List Byte) (c : Nat) : Nat → Nat
  | 0 => 0
  | w + 1 => (bufBit buf c).toNat * 2 ^ w + bufBits buf (c + 1) w

/-- `FieldRead(o, w)` (40_bitfield.md R101). -/
def State.fieldRead (o w : Nat) (s : State) : Word := BitVec.ofNat 32 (s.field.readBits o w)

/-- `FieldWrite(o, w, v)` (40_bitfield.md R102). -/
def State.fieldWrite (o w : Nat) (v : Word) (s : State) : State :=
  { s with field := s.field.writeBits o v.toNat w }

/-- A BitField of `cap` bits, all 0 (40_bitfield.md R104). -/
def State.createField (cap : Word) (s : State) : State :=
  { s with bfValid := true, bfCap := cap, field := [] }

/-- `Bind(bytes, n)` with `n` the number of bytes (41_bitcursor.md R131). -/
def State.bindBuffer (bytes : List Byte) (s : State) : State :=
  { s with buf := bytes, bcLen := BitVec.ofNat 32 bytes.length, bcCur := 0#32, bcBound := true }

/-- One `draw()` is used up, so that the next is a fresh one (log 7). -/
def State.drawn (s : State) : State := { s with draws := s.draws + 1 }

/-- What a cursor read answers (41_bitcursor.md R132). -/
structure CursorResult where
  value : Word
  isPartial : Bool
  after : State
deriving DecidableEq, Repr

/-- `CursorRead(w)` (41_bitcursor.md R132): a full read advances the cursor by `w`; a partial read draws its value and takes
the cursor to the end of the buffer. -/
def State.cursorRead (w : Nat) (s : State) : CursorResult :=
  if s.partialRead w then
    ⟨Config.drawWord s.draws, true, { s.drawn with bcCur := BitVec.ofNat 32 (8 * s.bcLen.toNat) }⟩
  else
    ⟨BitVec.ofNat 32 (bufBits s.buf s.bcCur.toNat w), false,
      { s with bcCur := BitVec.ofNat 32 (s.bcCur.toNat + w) }⟩

/-- `raise Fault(cause, info)` (60_exceptions.md R231): the first fault is recorded, nothing else changes. -/
def State.raiseFault (engine : Bool) (opc : BitVec 8) (r : Raise) (s : State) : State :=
  if s.halted then s else { s with fault := faultWord engine opc r.cause, faultInfo := r.info }

/-- A command of opcode `opc` ends: with a fault and no other effect when its check failed, else with its effect
(60_exceptions.md R231: every check precedes the first write). -/
def checked (op : Op) (check : Option Raise) (s done : State) : State :=
  match check with
  | some r => s.raiseFault false op.code r
  | none => done

/-- `ENC_CONFIG` writes the configuration (42_engine.md R161). -/
def State.setConfig (ecc bps bpc : Word) (s : State) : State :=
  { s with cfgEcc := ecc, cfgBps := bps, cfgBpc := bpc }

/-- The engine's control state changes (00_scope.md R10, `ENG <- s`). -/
def State.setEng (e : Eng) (s : State) : State := { s with eng := e }

/-- The oldest command leaves the command port: it has been taken (30_encoding.md R80). -/
def State.popPort (s : State) : State := { s with port := s.port.tail }

/-- Answers of the collaborators have been used up (42_engine.md R190, R192). -/
def State.setOracles (o : Oracles) (s : State) : State := { s with oracles := o }

/-- The frame starts (42_engine.md R170, R173): the collaborators are opened, the BitField is `cap` zeros, the BitCursor is
unbound, and interleaver, drain and engine are at their start. -/
def State.startFrame (cap canvas : Word) (s : State) : State :=
  { s with
    events := s.events ++ [.imgOpen s.cfgBps s.cfgBpc s.params.darkMode s.params.colorMode canvas,
      .fecOpen s.cfgEcc s.params.eccBlockSize]
    bfCap := cap, field := [], bfValid := true
    bcBound := false, bcLen := 0#32, bcCur := 0#32, buf := []
    phase := .fillSymbols, pos := 0#32, dpos := 0#32, cellCount := 0#32, frameStatus := .busy, eng := .pull }

/-- The frame ends (42_engine.md R188): the BitField and the BitCursor are discarded; `PHASE`, `POS`, `DPOS`, `CELL_COUNT`
keep their values. -/
def State.endFrame (s : State) : State :=
  { s with
    frameStatus := .frame
    bfValid := false, bfCap := 0#32, field := []
    bcBound := false, bcLen := 0#32, bcCur := 0#32, buf := []
    eng := .idle }

/-- The reset input (70_reset_and_hazards.md R260): every register to its reset value. What is no register of the block
stays: the parameters, the port, the turns, the collaborators and the events already sent (R261; log 12). -/
def State.applyReset (s : State) : State :=
  { State.resetWith s.params with
    draws := s.draws, port := s.port, turns := s.turns, oracles := s.oracles, events := s.events }

/-- The register numbered `r` (43_state_access.md R220), as `STATE_READ` shows it; reserved numbers read 0. `RES` and `FLAG`
that no command has written read as a fresh draw (10_state.md R24). -/
def State.readReg (r : Nat) (s : State) : Word :=
  match r with
  | 0 => s.cfgEcc
  | 1 => s.cfgBps
  | 2 => s.cfgBpc
  | 3 => BitVec.ofNat 32 s.bpo
  | 4 => BitVec.ofNat 32 s.bfValid.toNat
  | 5 => s.bfCap
  | 6 => BitVec.ofNat 32 s.bcBound.toNat
  | 7 => s.bcLen
  | 8 => s.bcCur
  | 9 => BitVec.ofNat 32 s.eng.code
  | 10 => BitVec.ofNat 32 s.phase.code
  | 11 => s.pos
  | 12 => s.dpos
  | 13 => BitVec.ofNat 32 s.frameStatus.code
  | 14 => s.cellCount
  | 15 => if s.resWritten then s.res else Config.drawWord s.draws
  | 16 => BitVec.ofNat 32 (if s.flagWritten then s.flag else Config.drawFlag s.draws).toNat
  | 17 => s.fault
  | 18 => s.faultInfo
  | _ => 0#32

/-- Whether reading register `r` uses a draw (10_state.md R24). -/
def State.readDraws (r : Nat) (s : State) : Bool :=
  (r == 15 && !s.resWritten) || (r == 16 && !s.flagWritten)

end Sys2Proof.Machine
end

