-- ==== Sys2Proof/Machine/BitCursor.lean ====
section
/-! DEFINITION. The meanings of the BitCursor commands (41_bitcursor.md), each for an accepted command (30_encoding.md R80). -/

namespace Sys2Proof.Machine

/-- `BC_REBIND n, bytes`, with `n` the number of payload bytes (41_bitcursor.md R133). -/
def execBcRebind (payload : List Byte) (s : State) : Result :=
  .next (checked .bcRebind (chunkCheck payload.length s) s (s.bindBuffer payload))

/-- `BC_READ w` (41_bitcursor.md R136): the value goes to `RES` and the partial flag to `FLAG`. -/
def execBcRead (w : BitVec 6) (s : State) : Result :=
  let r := s.cursorRead w.toNat
  .next (checked .bcRead (bcCheck w.toNat s) s ((r.after.setRes r.value).setFlag r.isPartial))

/-- `BC_EXHAUSTED` (41_bitcursor.md R140). -/
def execBcExhausted (s : State) : Result :=
  .next (checked .bcExhausted (boundCheck s) s (s.setFlag s.exhausted))

end Sys2Proof.Machine
end

