-- ==== Sys2Proof/Machine/BitField.lean ====
section
/-! DEFINITION. The meanings of the BitField commands (40_bitfield.md), each for an accepted command (30_encoding.md R80). -/

namespace Sys2Proof.Machine

/-- `BF_INIT cap` (40_bitfield.md R104). -/
def execBfInit (cap : Word) (s : State) : Result :=
  .next (checked .bfInit (initCheck cap s) s (s.createField cap))

/-- `BF_WRITE v, o, w` (40_bitfield.md R105). -/
def execBfWrite (v o : Word) (w : BitVec 6) (s : State) : Result :=
  .next (checked .bfWrite (bfCheck o.toNat w.toNat s) s (s.fieldWrite o.toNat w.toNat v))

/-- `BF_READ o, w` (40_bitfield.md R106). -/
def execBfRead (o : Word) (w : BitVec 6) (s : State) : Result :=
  .next (checked .bfRead (bfCheck o.toNat w.toNat s) s (s.setRes (s.fieldRead o.toNat w.toNat)))

end Sys2Proof.Machine
end

