-- ==== Sys2Proof/Machine/Encoder.lean ====
section
/-! DEFINITION. The meanings of `ENC_CONFIG` and `ENC_FRAME` (42_engine.md sections 1 and 2), each for an accepted command
(30_encoding.md R80). The engine steps of a frame are in Machine/Engine.lean. -/

namespace Sys2Proof.Machine

/-- `ENC_CONFIG ecc, bps, bpc` (42_engine.md R161): fallback to the defaults first, then the check, then the write. -/
def execEncConfig (ecc bps bpc : Word) (s : State) : Result :=
  let e := orDefault ecc s.params.defaultEccBytes
  let b := orDefault bps s.params.defaultSymbolBits
  let c := orDefault bpc s.params.defaultColorBits
  .next (checked .encConfig (configCheck b c) s (s.setConfig e b c))

/-- What the acceptance step of `ENC_FRAME` does once `ext.SRC_GOOD()` has answered (42_engine.md R170, R172, R173); with no
answer yet it waits (R194; log 14). -/
def sourceAnswered (cap canvas : Word) (s : State) : State :=
  match s.oracles.srcGood with
  | [] => s
  | false :: rest => { s.setOracles { s.oracles with srcGood := rest } with frameStatus := .endOfStream }
  | true :: rest => (s.setOracles { s.oracles with srcGood := rest }).startFrame cap canvas

/-- `ENC_FRAME cap, canvas` (42_engine.md R170). -/
def execEncFrame (cap canvas : Word) (s : State) : Result :=
  .next (checked .encFrame (frameCheck cap s) s (sourceAnswered cap canvas s))

/-- Whether the command must wait on the port for `ext.SRC_GOOD()` to answer (42_engine.md R192, R194; log 14). -/
def awaitsSource (i : Instr) (s : State) : Bool :=
  match i with
  | .encFrame cap _ => (frameCheck cap s).isNone && s.oracles.srcGood.isEmpty
  | .bfInit _ | .bfWrite _ _ _ | .bfRead _ _ | .bcRebind _ | .bcRead _ | .bcExhausted
  | .encConfig _ _ _ | .stateRead _ => false

end Sys2Proof.Machine
end

