-- ==== Sys2Proof/Machine/StateAccess.lean ====
section
/-! DEFINITION. The meaning of `STATE_READ` (43_state_access.md), for every register number. -/

namespace Sys2Proof.Machine

/-- `STATE_READ r` (43_state_access.md R221). -/
def execStateRead (r : Word) (s : State) : Result :=
  .next ((if s.readDraws r.toNat then s.drawn else s).setRes (s.readReg r.toNat))

end Sys2Proof.Machine
end

