-- ==== Sys2Proof/Machine/Dispatch.lean ====
section
/-! DEFINITION. The execution of an accepted command (30_encoding.md R80), one arm per row of the opcode map R84.
Whether a command is accepted is decided in Machine/Turn.lean (log 22). -/

namespace Sys2Proof.Machine

def exec (i : Instr) (s : State) : Host.Outcome State Fault Refusal :=
  match i with
  | .bfInit cap => Sys2Proof.Machine.execBfInit cap s
  | .bfWrite v o w => Sys2Proof.Machine.execBfWrite v o w s
  | .bfRead o w => Sys2Proof.Machine.execBfRead o w s
  | .bcRebind payload => Sys2Proof.Machine.execBcRebind payload s
  | .bcRead w => Sys2Proof.Machine.execBcRead w s
  | .bcExhausted => Sys2Proof.Machine.execBcExhausted s
  | .encConfig ecc bps bpc => Sys2Proof.Machine.execEncConfig ecc bps bpc s
  | .encFrame cap canvas => Sys2Proof.Machine.execEncFrame cap canvas s
  | .stateRead r => Sys2Proof.Machine.execStateRead r s

end Sys2Proof.Machine
end

