-- ==== Sys2Proof/Machine/Engine.lean ====
section
/-! DEFINITION. The engine's micro-steps `PULL`, `FILL` and `DRAIN` (42_engine.md R180 to R188). -/

namespace Sys2Proof.Machine

/-- An engine step is enabled (42_engine.md R180). -/
def State.engineEnabled (s : State) : Bool := s.eng != .idle && !s.halted

/-- The width the interleaver reads (42_engine.md R183, R184; `Complete`, never held here, counts as colors: log 21). -/
def State.readWidth (s : State) : Nat := if s.phase = .fillSymbols then s.cfgBps.toNat else s.cfgBpc.toNat

/-- The width the interleaver writes (42_engine.md R183, R185). -/
def State.writeWidth (s : State) : Nat := if s.phase = .fillSymbols then s.bpo else s.cfgBpc.toNat

/-- Whether `FieldRead` and `FieldWrite` are defined at `(o, w)` (40_bitfield.md R101, R102). -/
def State.fieldDefined (o w : Nat) (s : State) : Bool := widthOk w && decide (o + w ≤ s.bfCap.toNat)

/-- A `PULL` step whose `ext.FEC_READSOME()` answered `n` (42_engine.md R181), with the answers `gs`, `ns` still to come. It
waits while the `n` bytes have not all been delivered (R180; log 15); `BAD_CHUNK` uses up the answers it asked for (log 20). -/
def pullChunk (n : Word) (gs : List Bool) (ns : List Word) (s : State) : State :=
  let asked := s.setOracles { s.oracles with fecGood := gs, fecCount := ns }
  if n.toNat = 0 then asked.setEng .drain
  else
    match chunkCheck n.toNat s with
    | some r => asked.raiseFault true Op.encFrame.code r
    | none =>
      if s.oracles.fecStream.length < n.toNat then s
      else
        ((s.setOracles ⟨s.oracles.srcGood, gs, ns, s.oracles.fecStream.drop n.toNat⟩).bindBuffer
          (s.oracles.fecStream.take n.toNat)).setEng .fill

/-- The `PULL` step (42_engine.md R181). It waits while a query has no answer (R180; log 15). -/
def enginePull (s : State) : Result :=
  .next (match s.oracles.fecGood with
    | [] => s
    | false :: gs => (s.setOracles { s.oracles with fecGood := gs }).setEng .drain
    | true :: gs =>
      match s.oracles.fecCount with
      | [] => s
      | n :: ns => pullChunk n gs ns s)

/-- The stripe advance, "regardless" of a partial read, and the phase change at the stripe limit (42_engine.md R183, R186). -/
def State.advance (s : State) : State :=
  let p := s.pos.toNat + s.bpo
  if p = s.stripeLimit then
    if s.phase = .fillSymbols then { s with pos := 0#32, phase := .fillColors, eng := .pull }
    else { s with pos := BitVec.ofNat 32 p, phase := .complete, eng := .drain }
  else { s with pos := BitVec.ofNat 32 p }

/-- The `FILL` step (42_engine.md R183). -/
def engineFill (s : State) : Result :=
  if s.exhausted then .next (s.setEng .pull)
  else if (s.bcBound && widthOk s.readWidth) = false then .fault .cursorContract
  else
    let r := s.cursorRead s.readWidth
    if r.isPartial then .next r.after.advance
    else if s.fieldDefined s.pos.toNat s.writeWidth then
      .next (r.after.fieldWrite s.pos.toNat s.writeWidth r.value).advance
    else .fault .fieldContract

/-- One cell is sent to the image writer (42_engine.md R187). -/
def State.drainCell (s : State) : State :=
  { s with
    events := s.events ++ [.imgWrite (s.fieldRead s.dpos.toNat s.bpo)]
    cellCount := s.cellCount + 1#32, dpos := BitVec.ofNat 32 (s.dpos.toNat + s.bpo) }

/-- The `DRAIN` step (42_engine.md R187, R188). -/
def engineDrain (s : State) : Result :=
  if s.dpos.toNat < s.stripeLimit then
    if s.fieldDefined s.dpos.toNat s.bpo then .next s.drainCell else .fault .fieldContract
  else .next s.endFrame

/-- The engine's turn (42_engine.md R180): the arm of `ENG`, or nothing while no engine step is enabled. -/
def engineStep (s : State) : Result :=
  if s.engineEnabled = false then .next s
  else
    match s.eng with
    | .idle => .next s
    | .pull => enginePull s
    | .fill => engineFill s
    | .drain => engineDrain s

end Sys2Proof.Machine
end

