-- ==== Sys2Proof/Machine/Turn.lean ====
section
/-! DEFINITION. Whose turn it is, and what the host's turn does with the command at the head of the command port
(30_encoding.md R80, 42_engine.md R178, 60_exceptions.md R233). -/

namespace Sys2Proof.Machine

/-- Who takes the next step: as `turns` says; when it says nothing, the engine while it is enabled, else the host (log 3). -/
def State.turn (s : State) : Turn := s.turns.headD (if s.engineEnabled then .engine else .host)

/-- The turn has been taken. -/
def State.nextTurn (s : State) : State := { s with turns := s.turns.tail }

/-- Whether the block takes a transaction (30_encoding.md R80): `STATE_READ` in any state, every other command when no fault
is recorded and the engine is idle. Which command it is, `OPC` says (log 10). -/
def State.accepts (t : Transaction) (s : State) : Bool :=
  t.opc == Op.stateRead.code || (!s.halted && s.eng == .idle)

/-- An accepted transaction is decoded and executed (30_encoding.md R80, R87). The command leaves the port, except an
`ENC_FRAME` still waiting for the source's answer (log 14). -/
def runCommand (t : Transaction) (s : State) : Result :=
  match decode t with
  | .rejected .payloadLength => .refused .payloadLength
  | .rejected .unknownOpcode | .rejected .reservedBits | .rejected .widthNotZero =>
    .next (s.popPort.raiseFault false t.opc ⟨.illegalCmd, t.cmd⟩)
  | .instr i =>
    match exec i s with
    | .next s' => .next (if awaitsSource i s then s' else s'.popPort)
    | .fault f => .fault f
    | .refused r => .refused r

/-- The host's turn: an accepted command runs; a halted block passes a command over without effect (60_exceptions.md R233;
log 11); while a frame runs a command is held (42_engine.md R178); with no command the block waits. -/
def hostStep (s : State) : Result :=
  match s.port with
  | [] => .next s
  | t :: _ =>
    if s.accepts t then runCommand t s
    else if s.halted then .next s.popPort
    else .next s

/-- One step of the agent whose turn it is. -/
def takeTurn (who : Turn) (s : State) : Result :=
  match who with
  | .host => hostStep s
  | .engine => engineStep s
  | .reset => .next s.applyReset

/-- The command `t` stands at the head of the port and the host has the next turn. -/
def State.present (t : Transaction) (s : State) : State :=
  { s with port := t :: s.port, turns := .host :: s.turns }

end Sys2Proof.Machine
end

