-- ==== Sys2Proof/Machine/Step.lean ====
section
/-! DEFINITION. One step of the block, and how a command given by its bits is placed where the next step takes it. -/

namespace Sys2Proof.Machine

/-- One step: the agent whose turn it is acts (20_memory.md R72: one total order of host and engine steps). -/
def step (s : State) : Host.Outcome State Fault Refusal := takeTurn s.turn s.nextTurn

/-- `s` with the transaction whose first `nbits` bits are `w` at the head of the command port and the next turn the host's:
the block has no instruction memory (20_memory.md R64), a command comes from the host (log 19). -/
def State.withFetchWord (s : State) (nbits w : Nat) : State := s.present (Transaction.ofBits nbits w)

end Sys2Proof.Machine
end

