-- ==== Sys2Proof/Safety.lean ====
section
/-! DEFINITION. The invariant of the block, part by part as 10_state.md gives it, and what counts as a safe step. -/

namespace Sys2Proof.Machine

/-- The configuration registers hold legal values (10_state.md R22). -/
abbrev State.ConfigLegal (s : State) : Prop :=
  (1 ≤ s.cfgEcc.toNat ∧ s.cfgEcc.toNat ≤ 2 ^ 31 - 1) ∧
  1 ≤ s.cfgBps.toNat ∧ 1 ≤ s.cfgBpc.toNat ∧ s.cfgBps.toNat + s.cfgBpc.toNat ≤ 32

/-- The BitField is in its canonical form, inside its capacity, and absent exactly when `BF_CAP` is 0 (10_state.md R26). -/
abbrev State.FieldLegal (s : State) : Prop :=
  Memory.wf s.field ∧ (∀ c ∈ s.field, c.1 < s.bfCap.toNat) ∧
  (s.bfValid = true → 1 ≤ s.bfCap.toNat ∧ s.bfCap.toNat ≤ s.params.maxCapBits) ∧
  (s.bfValid = false → s.bfCap = 0#32)

/-- The BitCursor's cursor is inside its buffer (10_state.md R27, 41_bitcursor.md R135). -/
abbrev State.CursorLegal (s : State) : Prop :=
  s.bcLen.toNat = s.buf.length ∧ s.bcLen.toNat ≤ s.params.maxChunkBytes ∧
  s.bcCur.toNat ≤ 8 * s.bcLen.toNat ∧ (s.bcBound = false → s.bcLen = 0#32)

/-- While a frame runs: the BitField exists, `POS` and `DPOS` are stripe boundaries inside the stripe limit, the cell count
matches the drain position, and `ENG` and `PHASE` agree (10_state.md R28 to R33, 42_engine.md R180). -/
abbrev State.FrameLegal (s : State) : Prop :=
  (s.eng = .idle → s.frameStatus ≠ .busy) ∧
  (s.eng ≠ .idle →
    s.frameStatus = .busy ∧ s.bfValid = true ∧ s.bpo ≤ s.bfCap.toNat ∧
    s.pos.toNat % s.bpo = 0 ∧ s.pos.toNat ≤ s.stripeLimit ∧
    s.dpos.toNat % s.bpo = 0 ∧ s.dpos.toNat ≤ s.stripeLimit ∧
    s.cellCount.toNat * s.bpo = s.dpos.toNat) ∧
  ((s.eng = .pull ∨ s.eng = .fill) → s.phase ≠ .complete ∧ s.pos.toNat < s.stripeLimit ∧ s.dpos = 0#32) ∧
  (s.eng = .fill → s.bcBound = true) ∧
  (s.eng = .drain → (s.phase = .complete ↔ s.pos.toNat = s.stripeLimit))

/-- `FAULT` and `FAULT_INFO` are 0 until a fault is recorded, and then hold a fault word of 10_state.md R34 with a cause code
of 60_exceptions.md R230. -/
abbrev State.FaultLegal (s : State) : Prop :=
  (s.halted = false → s.fault = 0#32 ∧ s.faultInfo = 0#32) ∧
  s.fault.extractLsb' 16 14 = 0#14 ∧
  (s.halted = true → 1 ≤ (s.fault.extractLsb' 0 8).toNat ∧ (s.fault.extractLsb' 0 8).toNat ≤ 9)

/-- The invariant of the block: it holds at reset and every step keeps it. -/
structure State.Inv (s : State) : Prop where
  params : s.params.Ok
  config : s.ConfigLegal
  field : s.FieldLegal
  cursor : s.CursorLegal
  frame : s.FrameLegal
  fault : s.FaultLegal

/-- A step is safe when the model does not stop and the block is not halted after it (60_exceptions.md R233: a halted block
is never a completed run). -/
abbrev SafeStep (s t : State) : Prop := step s = .next t ∧ t.halted = false

/-- How many interleaver reads the frame still has at most before `Complete` (42_engine.md R183: each read advances `POS` by
`BPO`, first through the symbols, then through the colors). -/
def State.readsLeft (s : State) : Nat :=
  match s.phase with
  | .fillSymbols => (s.stripes - s.pos.toNat / s.bpo) + s.stripes
  | .fillColors => s.stripes - s.pos.toNat / s.bpo
  | .complete => 0

/-- A bound on the engine steps the frame still takes when no query waits (42_engine.md R203): at most three for each read
(the read, the step that finds its chunk used up, the next `PULL`), then the drain. -/
def State.frameMeasure (s : State) : Nat :=
  match s.eng with
  | .idle => 0
  | .drain => (s.stripes - s.dpos.toNat / s.bpo) + 1
  | .pull => 3 * s.readsLeft + s.stripes + 3
  | .fill => 3 * s.readsLeft + s.stripes + 2 + (if s.exhausted then 2 else 0)

end Sys2Proof.Machine
end

