-- ==== Sys2Proof/Certificates/Slice0/Obligations.lean ====
section
/-! DEFINITION. The statements for the provers, rule by rule. A fault word is written as the number 10_state.md R34 and
95_test_vectors.md give it: V is bit 31, E bit 30, OPC bits 15..8, CAUSE bits 7..0. -/

namespace Sys2Proof.Machine

/-! ## Words used in the statements -/

/-- The illegal command words, as 30_encoding.md R87 lists them: (a) an `OPC` outside the nine values of R84, (b) `RSV != 0`,
(c) `W != 0` on a row without a width. -/
def IllegalWord (c : Transaction) : Prop :=
  c.opc ∉ [0x01#8, 0x02#8, 0x03#8, 0x11#8, 0x12#8, 0x13#8, 0x21#8, 0x22#8, 0x31#8] ∨
  c.cmd.extractLsb' 6 18 ≠ 0#18 ∨
  (c.opc ∈ [0x01#8, 0x11#8, 0x13#8, 0x21#8, 0x22#8, 0x31#8] ∧ c.cmd.extractLsb' 0 6 ≠ 0#6)

/-- Two transactions agree on every operand word, and on the payload, that the command `i` reads (30_encoding.md R84). -/
def OperandsAgree (i : Instr) (a b : Transaction) : Prop :=
  match i with
  | .bfInit _ => a.op0 = b.op0
  | .bfWrite _ _ _ => a.op0 = b.op0 ∧ a.op1 = b.op1
  | .bfRead _ _ => a.op1 = b.op1
  | .bcRebind _ => a.op0 = b.op0 ∧ a.payload = b.payload
  | .bcRead _ => True
  | .bcExhausted => True
  | .encConfig _ _ _ => a.op0 = b.op0 ∧ a.op1 = b.op1 ∧ a.op2 = b.op2
  | .encFrame _ _ => a.op0 = b.op0 ∧ a.op1 = b.op1
  | .stateRead _ => a.op0 = b.op0

/-- The configuration registers and the parameters are unchanged. -/
def SameConfig (s t : State) : Prop :=
  t.params = s.params ∧ t.cfgEcc = s.cfgEcc ∧ t.cfgBps = s.cfgBps ∧ t.cfgBpc = s.cfgBpc

/-- The BitField is unchanged: whether it exists, its capacity, every bit. -/
def SameField (s t : State) : Prop :=
  t.bfValid = s.bfValid ∧ t.bfCap = s.bfCap ∧ ∀ i, t.field.read i = s.field.read i

/-- The BitCursor is unchanged: whether it is bound, its length, its cursor, its bytes. -/
def SameCursor (s t : State) : Prop :=
  t.bcBound = s.bcBound ∧ t.bcLen = s.bcLen ∧ t.bcCur = s.bcCur ∧ t.buf = s.buf

/-- The engine's registers are unchanged. -/
def SameEngine (s t : State) : Prop :=
  t.eng = s.eng ∧ t.phase = s.phase ∧ t.pos = s.pos ∧ t.dpos = s.dpos ∧ t.frameStatus = s.frameStatus ∧
  t.cellCount = s.cellCount

/-- `RES` is unchanged. -/
def SameRes (s t : State) : Prop := t.res = s.res ∧ t.resWritten = s.resWritten

/-- `FLAG` is unchanged. -/
def SameFlag (s t : State) : Prop := t.flag = s.flag ∧ t.flagWritten = s.flagWritten

/-- The fault registers are unchanged. -/
def SameFault (s t : State) : Prop := t.fault = s.fault ∧ t.faultInfo = s.faultInfo

/-- What is outside the block is unchanged: the port, the turns, the answers to come, the events sent. -/
def SameOutside (s t : State) : Prop :=
  t.port = s.port ∧ t.turns = s.turns ∧ t.oracles = s.oracles ∧ t.events = s.events

/-- The values of a sequence of cursor reads, and the state after them. -/
def readSequence : List (BitVec 6) → State → List (Nat × Nat) × State
  | [], s => ([], s)
  | w :: ws, s =>
    match exec (.bcRead w) s with
    | .next t => ((w.toNat, t.res.toNat) :: (readSequence ws t).1, (readSequence ws t).2)
    | .fault _ => ([], s)
    | .refused _ => ([], s)

/-- Fields of given widths put together, the first most significant. -/
def joinFields (l : List (Nat × Nat)) : Nat := l.foldl (fun acc f => acc * 2 ^ f.1 + f.2) 0

end Sys2Proof.Machine

open Sys2Proof Sys2Proof.Machine

/-! ## Encoding -/

/-- 30_encoding.md R91 and the opcode map R84: words written out from the spec decode to the commands they stand for. -/
def Obligations.SpecWordsDecode : Prop :=
  decode ⟨0x01000000#32, 16#32, 0#32, 0#32, []⟩ = .instr (.bfInit 16#32) ∧
  decode ⟨0x02000004#32, 0xB#32, 0#32, 0#32, []⟩ = .instr (.bfWrite 0xB#32 0#32 4#6) ∧
  decode ⟨0x03000004#32, 0#32, 2#32, 0#32, []⟩ = .instr (.bfRead 2#32 4#6) ∧
  decode ⟨0x11000000#32, 2#32, 0#32, 0#32, [0xA5#8, 0x3C#8]⟩ = .instr (.bcRebind [0xA5#8, 0x3C#8]) ∧
  decode ⟨0x12000020#32, 0#32, 0#32, 0#32, []⟩ = .instr (.bcRead 32#6) ∧
  decode ⟨0x12000000#32, 0#32, 0#32, 0#32, []⟩ = .instr (.bcRead 0#6) ∧
  decode ⟨0x13000000#32, 0#32, 0#32, 0#32, []⟩ = .instr .bcExhausted ∧
  decode ⟨0x21000000#32, 0#32, 4#32, 2#32, []⟩ = .instr (.encConfig 0#32 4#32 2#32) ∧
  decode ⟨0x22000000#32, 0x30#32, 0#32, 0#32, []⟩ = .instr (.encFrame 0x30#32 0#32) ∧
  decode ⟨0x31000000#32, 0x11#32, 0#32, 0#32, []⟩ = .instr (.stateRead 17#32) ∧
  decode ⟨0x02000040#32, 0#32, 0#32, 0#32, []⟩ = .rejected .reservedBits ∧
  decode ⟨0x13000001#32, 0#32, 0#32, 0#32, []⟩ = .rejected .widthNotZero ∧
  decode ⟨0x00000000#32, 0#32, 0#32, 0#32, []⟩ = .rejected .unknownOpcode

/-- 30_encoding.md R81, R84, R89: every well-formed command, at every value of its operands, is read back from its own words. -/
def Obligations.DecodeEncodeRoundTrip : Prop :=
  ∀ i : Instr, i.WellFormed → decode (encode i) = .instr i

/-- 30_encoding.md R81, R82, R84: what the decoder reads is well formed, and its encoding agrees with the transaction in all the
decoder reads: the command word, and the operand words and payload the command names (R82: the others are ignored, and may
differ). So every legal word has one meaning. -/
def Obligations.DecodedCommandEncodesBack : Prop :=
  ∀ (c : Transaction) (i : Instr), decode c = .instr i →
    i.WellFormed ∧ (encode i).cmd = c.cmd ∧ OperandsAgree i (encode i) c

/-- 30_encoding.md R82: each command ignores the operand words, and all but `BC_REBIND` the payload, that it does not read. -/
def Obligations.UnusedOperandsIgnored : Prop :=
  ∀ (c d : Transaction) (i : Instr), decode c = .instr i → d.cmd = c.cmd → OperandsAgree i c d → decode d = .instr i

/-- 30_encoding.md R87: exactly the words of (a), (b), (c) are illegal, opcode 0x00 among them; an illegal command
the idle block takes records `ILLEGAL_CMD` with its word and changes nothing else. -/
def Obligations.IllegalCommandFaults : Prop :=
  (∀ c : Transaction, IllegalWord c ↔ ∃ e, decode c = .rejected e ∧ e ≠ .payloadLength) ∧
  (∀ c : Transaction, c.opc = 0x00#8 → IllegalWord c) ∧
  ∀ (s : State) (c : Transaction) (rest : List Transaction),
    s.turn = .host → s.port = c :: rest → s.halted = false → s.eng = .idle → IllegalWord c →
    step s = .next { s.nextTurn with
      port := rest, fault := 0x80000001#32 ||| (c.opc.zeroExtend 32 <<< 8), faultInfo := c.cmd }

/-! ## The command port and the step -/

/-- 30_encoding.md R80: when it is the host's turn and the command at the head of the port is accepted and decodes to `i`, the
step is `exec i`, after which the command leaves the port (an `ENC_FRAME` whose source has not answered stays: log 14). An
illegal word with the opcode of `STATE_READ` is accepted like a `STATE_READ`, in a frame too, and faults (log 10). -/
def Obligations.StepRunsDecodedCommand : Prop :=
  ∀ (s : State) (c : Transaction) (rest : List Transaction),
    s.turn = .host → s.port = c :: rest →
    (∀ i, (c.opc = 0x31#8 ∨ (s.halted = false ∧ s.eng = .idle)) → decode c = .instr i →
      step s = (match exec i s.nextTurn with
        | .next t => .next (if awaitsSource i s.nextTurn then t else t.popPort)
        | .fault f => .fault f
        | .refused r => .refused r)) ∧
    (c.opc = 0x31#8 → s.halted = false → IllegalWord c →
      step s = .next { s.nextTurn with port := rest, fault := 0x80003101#32, faultInfo := c.cmd })

/-- 42_engine.md R178: while a frame runs a command other than `STATE_READ` is held, neither executed nor faulted; a
`STATE_READ` is executed. -/
def Obligations.CommandsHeldDuringFrame : Prop :=
  ∀ (s : State) (c : Transaction) (rest : List Transaction),
    s.turn = .host → s.port = c :: rest → s.eng ≠ .idle → s.halted = false →
    (c.opc ≠ 0x31#8 → step s = .next s.nextTurn) ∧
    (∀ r, decode c = .instr (.stateRead r) →
      ∃ t, step s = .next t ∧ t.res = s.readReg r.toNat ∧ t.port = rest ∧ SameEngine s t ∧ SameField s t ∧ SameCursor s t)

/-- 60_exceptions.md R233: a halted block takes no engine step; a command other than a legal `STATE_READ`, an illegal `STATE_READ`
word too, has no effect on it and records nothing; a legal `STATE_READ` executes. -/
def Obligations.HaltedBlockOnlyReadsState : Prop :=
  ∀ s : State, s.halted = true →
    (s.turn = .engine → step s = .next s.nextTurn) ∧
    (∀ (c : Transaction) (rest : List Transaction), s.turn = .host → s.port = c :: rest →
      ((∀ r, decode c ≠ .instr (.stateRead r)) →
        ∃ t, step s = .next t ∧ t = { s with port := t.port, turns := t.turns }) ∧
      (∀ r, decode c = .instr (.stateRead r) →
        ∃ t, step s = .next t ∧ t.res = s.readReg r.toNat ∧ t.port = rest ∧ SameFault s t))

/-- 60_exceptions.md R234: only reset clears a recorded fault, and no later fault replaces it. -/
def Obligations.OnlyResetClearsFault : Prop :=
  ∀ s t : State, s.halted = true → step s = .next t →
    (s.turn ≠ .reset → SameFault s t ∧ t.halted = true) ∧
    (s.turn = .reset → t.fault = 0#32 ∧ t.faultInfo = 0#32 ∧ t.halted = false)

/-- 60_exceptions.md R231, R233: in a halted block nothing but `RES` changes (the port and the turns apart), whatever step other
than reset is taken. -/
def Obligations.HaltedStepChangesOnlyRes : Prop :=
  ∀ s t : State, s.halted = true → s.turn ≠ .reset → step s = .next t →
    SameConfig s t ∧ SameField s t ∧ SameCursor s t ∧ SameEngine s t ∧ SameFlag s t ∧ SameFault s t ∧
    t.oracles = s.oracles ∧ t.events = s.events

/-! ## Reset -/

/-- 70_reset_and_hazards.md R260: reset, in any state, sets every register to the value of its table in one step; a read of
`RES` or `FLAG` then is a draw, and with no command on the port the block waits,
whoever has the turn. -/
def Obligations.ResetSetsEveryRegister : Prop :=
  ∀ s : State, s.turn = .reset →
    ∃ t, step s = .next t ∧
      t.cfgEcc = s.params.defaultEccBytes ∧ t.cfgBps = s.params.defaultSymbolBits ∧ t.cfgBpc = s.params.defaultColorBits ∧
      t.bpo = s.params.defaultSymbolBits.toNat + s.params.defaultColorBits.toNat ∧
      t.bfValid = false ∧ t.bfCap = 0#32 ∧ t.field = [] ∧
      t.bcBound = false ∧ t.bcLen = 0#32 ∧ t.bcCur = 0#32 ∧ t.buf = [] ∧
      t.eng = .idle ∧ t.phase = .fillSymbols ∧ t.pos = 0#32 ∧ t.dpos = 0#32 ∧
      t.frameStatus = .noneYet ∧ t.cellCount = 0#32 ∧ t.fault = 0#32 ∧ t.faultInfo = 0#32 ∧
      t.readReg 15 = Config.drawWord t.draws ∧ t.readReg 16 = BitVec.ofNat 32 (Config.drawFlag t.draws).toNat ∧
      (t.port = [] → ∀ who, who ≠ .reset → takeTurn who t = .next t)

/-- 70_reset_and_hazards.md R261: a reset during a frame ends it without a frame end: no cell is written and no collaborator's
position moves. -/
def Obligations.ResetAbandonsFrame : Prop :=
  ∀ s : State, s.turn = .reset → s.eng ≠ .idle →
    ∃ t, step s = .next t ∧ t.eng = .idle ∧ t.frameStatus = .noneYet ∧ t.events = s.events ∧ t.oracles = s.oracles

/-- 70_reset_and_hazards.md R260, 00_scope.md R6: the machine after reset, for its unknown but legal parameters. -/
def Obligations.StateResetRegisters : Prop :=
  State.reset.params.Ok ∧
  State.reset.cfgEcc = Config.params.defaultEccBytes ∧ State.reset.cfgBps = Config.params.defaultSymbolBits ∧
  State.reset.cfgBpc = Config.params.defaultColorBits ∧
  State.reset.bfValid = false ∧ State.reset.bfCap = 0#32 ∧ State.reset.field = [] ∧
  State.reset.bcBound = false ∧ State.reset.bcLen = 0#32 ∧ State.reset.bcCur = 0#32 ∧ State.reset.buf = [] ∧
  State.reset.eng = .idle ∧ State.reset.phase = .fillSymbols ∧ State.reset.pos = 0#32 ∧ State.reset.dpos = 0#32 ∧
  State.reset.frameStatus = .noneYet ∧ State.reset.cellCount = 0#32 ∧
  State.reset.fault = 0#32 ∧ State.reset.faultInfo = 0#32

/-! ## The invariant -/

/-- The invariant holds at reset. -/
def Obligations.ResetMeetsInvariant : Prop := State.reset.Inv

/-- Every step, of the host, of the engine or of reset, keeps the invariant (10_state.md R22, R26, R27, R28 to R34). -/
def Obligations.StepKeepsInvariant : Prop := ∀ s t : State, s.Inv → step s = .next t → t.Inv

/-- 42_engine.md R202: under the invariant no engine step faults except `BAD_CHUNK`, every access of the engine is inside the
field, and every width is in `1 .. 32`. -/
def Obligations.EngineFaultsOnlyBadChunk : Prop :=
  ∀ s : State, s.Inv →
    (∀ f, engineStep s ≠ .fault f) ∧
    (∀ t, engineStep s = .next t → SameFault s t ∨ (s.eng = .pull ∧ t.fault = 0xC0002209#32)) ∧
    (1 ≤ s.cfgBps.toNat ∧ s.cfgBps.toNat ≤ 32 ∧ 1 ≤ s.cfgBpc.toNat ∧ s.cfgBpc.toNat ≤ 32 ∧ s.bpo ≤ 32) ∧
    (s.eng = .fill → s.pos.toNat + s.bpo ≤ s.stripeLimit ∧ s.pos.toNat + s.cfgBpc.toNat ≤ s.bfCap.toNat ∧
      s.stripeLimit ≤ s.bfCap.toNat) ∧
    (s.eng = .drain → s.dpos.toNat < s.stripeLimit →
      s.dpos.toNat + s.bpo ≤ s.stripeLimit ∧ s.stripeLimit ≤ s.bfCap.toNat)

/-- Under the invariant the model stops in one case only: the host presents a `BC_REBIND` whose payload is not `OP0` bytes long,
which 30_encoding.md R83 says no transaction is (log 8, log 9). -/
def Obligations.InvariantStepStopsOnlyOnBadPayload : Prop :=
  ∀ s : State, s.Inv →
    (∀ f, step s ≠ .fault f) ∧
    (∀ r, step s = .refused r →
      r = .payloadLength ∧ ∃ c rest, s.port = c :: rest ∧ c.opc = 0x11#8 ∧ c.payload.length ≠ c.op0.toNat)

/-! ## BitField -/

/-- 40_bitfield.md R104: `BF_INIT` makes a BitField of `cap` zeros and changes nothing else; outside `1 .. MAX_CAP_BITS` it
faults `BAD_CAPACITY`. -/
def Obligations.BfInitCreatesZeroField : Prop :=
  ∀ (cap : Word) (s : State),
    (1 ≤ cap.toNat → cap.toNat ≤ s.params.maxCapBits →
      exec (.bfInit cap) s = .next { s with bfValid := true, bfCap := cap, field := [] } ∧
      ∀ i, Memory.read [] i = false) ∧
    (s.halted = false → (cap = 0#32 ∨ s.params.maxCapBits < cap.toNat) →
      exec (.bfInit cap) s = .next { s with fault := 0x80000108#32, faultInfo := cap })

/-- 40_bitfield.md R102: inside the space `BF_WRITE` completes; value bit `w-1-j` is at offset `o+j`, no other bit of the field
and nothing else of the state changes. -/
def Obligations.BfWriteStoresBits : Prop :=
  ∀ (v o : Word) (w : BitVec 6) (s : State), Memory.wf s.field → s.bfValid = true →
    1 ≤ w.toNat → w.toNat ≤ 32 → o.toNat + w.toNat ≤ s.bfCap.toNat →
    ∃ t, exec (.bfWrite v o w) s = .next t ∧
      (∀ j, j < w.toNat → t.field.read (o.toNat + j) = v.getLsbD (w.toNat - 1 - j)) ∧
      (∀ i, i < o.toNat ∨ o.toNat + w.toNat ≤ i → t.field.read i = s.field.read i) ∧
      t = { s with field := t.field }

/-- 40_bitfield.md R101: inside the space `BF_READ` completes; `FIELD[o]` is the most significant of the `w` bits of `RES`, the
bits above are 0, and nothing else changes. -/
def Obligations.BfReadReturnsBits : Prop :=
  ∀ (o : Word) (w : BitVec 6) (s : State), s.bfValid = true →
    1 ≤ w.toNat → w.toNat ≤ 32 → o.toNat + w.toNat ≤ s.bfCap.toNat →
    ∃ t, exec (.bfRead o w) s = .next t ∧
      (∀ j, j < w.toNat → t.res.getLsbD (w.toNat - 1 - j) = s.field.read (o.toNat + j)) ∧
      t.res.toNat < 2 ^ w.toNat ∧
      t = { s with res := t.res, resWritten := true }

/-- 40_bitfield.md R103: `BfCheck` for both commands: `BF_UNINIT`, then `BF_WIDTH`, then `BF_BOUNDS` without wrap-around; each
faults and changes nothing else. -/
def Obligations.BfCheckFaultsInOrder : Prop :=
  ∀ (v o : Word) (w : BitVec 6) (s : State), s.halted = false →
    (s.bfValid = false →
      exec (.bfWrite v o w) s = .next { s with fault := 0x80000204#32, faultInfo := 0#32 } ∧
      exec (.bfRead o w) s = .next { s with fault := 0x80000304#32, faultInfo := 0#32 }) ∧
    (s.bfValid = true → (w.toNat < 1 ∨ 32 < w.toNat) →
      exec (.bfWrite v o w) s = .next { s with fault := 0x80000202#32, faultInfo := w.zeroExtend 32 } ∧
      exec (.bfRead o w) s = .next { s with fault := 0x80000302#32, faultInfo := w.zeroExtend 32 }) ∧
    (s.bfValid = true → 1 ≤ w.toNat → w.toNat ≤ 32 → s.bfCap.toNat < o.toNat + w.toNat →
      exec (.bfWrite v o w) s = .next { s with fault := 0x80000203#32, faultInfo := o } ∧
      exec (.bfRead o w) s = .next { s with fault := 0x80000303#32, faultInfo := o })

/-- 40_bitfield.md R107: the round trip: a `BF_READ` after a `BF_WRITE` of a `w`-bit value at the same place gives the value, and
every bit outside is unchanged by the pair. -/
def Obligations.BfWriteThenReadRoundTrip : Prop :=
  ∀ (v o : Word) (w : BitVec 6) (s : State), Memory.wf s.field → s.bfValid = true →
    1 ≤ w.toNat → w.toNat ≤ 32 → o.toNat + w.toNat ≤ s.bfCap.toNat → v.toNat < 2 ^ w.toNat →
    ∃ t u, exec (.bfWrite v o w) s = .next t ∧ exec (.bfRead o w) t = .next u ∧ u.res = v ∧
      ∀ i, i < o.toNat ∨ o.toNat + w.toNat ≤ i → u.field.read i = s.field.read i

/-- 40_bitfield.md R108: `BF_WRITE v` does what `BF_WRITE trunc_w(v)` does, and the read that follows gives `trunc_w(v)`. -/
def Obligations.BfWriteTruncates : Prop :=
  ∀ (v o : Word) (w : BitVec 6) (s : State),
    exec (.bfWrite v o w) s = exec (.bfWrite (BitVec.ofNat 32 (v.toNat % 2 ^ w.toNat)) o w) s ∧
    (Memory.wf s.field → s.bfValid = true → 1 ≤ w.toNat → w.toNat ≤ 32 → o.toNat + w.toNat ≤ s.bfCap.toNat →
      ∃ t u, exec (.bfWrite v o w) s = .next t ∧ exec (.bfRead o w) t = .next u ∧
        u.res = BitVec.ofNat 32 (v.toNat % 2 ^ w.toNat))

/-- 20_memory.md R67: a field read as two narrower fields gives them in the same most-significant-first order. -/
def Obligations.FieldReadSplits : Prop :=
  ∀ (s : State) (o a b : Nat), a + b ≤ 32 →
    (s.fieldRead o (a + b)).toNat = (s.fieldRead o a).toNat * 2 ^ b + (s.fieldRead (o + a) b).toNat

/-- 40_bitfield.md R100, R105, 60_exceptions.md R231: the frame of the storing commands. `BF_WRITE` stores the `w` bits from `o`
on, or, when its check fails, none; `BF_INIT` replaces the BitField and may touch every bit of it. Neither changes any
register but the fault record, and that only when the check fails. -/
def Obligations.StoringCommandsFrame : Prop :=
  (∀ (v o : Word) (w : BitVec 6) (s t : State), exec (.bfWrite v o w) s = .next t →
    SameConfig s t ∧ t.bfValid = s.bfValid ∧ t.bfCap = s.bfCap ∧
    (∀ i, i < o.toNat ∨ o.toNat + w.toNat ≤ i → t.field.read i = s.field.read i) ∧
    SameCursor s t ∧ SameEngine s t ∧ SameRes s t ∧ SameFlag s t ∧ SameOutside s t ∧ t.draws = s.draws ∧
    (if s.bfValid = true ∧ 1 ≤ w.toNat ∧ w.toNat ≤ 32 ∧ o.toNat + w.toNat ≤ s.bfCap.toNat
      then SameFault s t else SameField s t)) ∧
  (∀ (cap : Word) (s t : State), exec (.bfInit cap) s = .next t →
    SameConfig s t ∧ SameCursor s t ∧ SameEngine s t ∧ SameRes s t ∧ SameFlag s t ∧ SameOutside s t ∧ t.draws = s.draws ∧
    (if 1 ≤ cap.toNat ∧ cap.toNat ≤ s.params.maxCapBits then SameFault s t else SameField s t))

/-- 20_memory.md R70, 41_bitcursor.md R136, R140, 42_engine.md R161, 43_state_access.md R221: the frame of the commands that
store to no bit of the BitField: `BF_READ`, `BC_REBIND`, `BC_READ`, `BC_EXHAUSTED`, `ENC_CONFIG`, `STATE_READ`. Every bit of the
field, the engine's registers, the port, the answers to come and the events are unchanged by each; the clauses that follow say
what else each leaves alone. The fault record changes only when the command's check fails. -/
def Obligations.NonStoringCommandsFrame : Prop :=
  ∀ (i : Instr) (s t : State), exec i s = .next t →
    match i with
    | .bfInit _ | .bfWrite _ _ _ | .encFrame _ _ => True
    | .bfRead o w => SameField s t ∧ SameEngine s t ∧ SameOutside s t ∧ SameConfig s t ∧ SameCursor s t ∧ SameFlag s t ∧
        (bfCheck o.toNat w.toNat s = none → SameFault s t) ∧ (bfCheck o.toNat w.toNat s ≠ none → SameRes s t)
    | .bcRebind payload => SameField s t ∧ SameEngine s t ∧ SameOutside s t ∧ SameConfig s t ∧ SameRes s t ∧ SameFlag s t ∧
        (if payload.length ≤ s.params.maxChunkBytes then SameFault s t else SameCursor s t)
    | .bcRead w => SameField s t ∧ SameEngine s t ∧ SameOutside s t ∧ SameConfig s t ∧
        t.bcBound = s.bcBound ∧ t.bcLen = s.bcLen ∧ t.buf = s.buf ∧
        (if s.bcBound = true ∧ 1 ≤ w.toNat ∧ w.toNat ≤ 32 then SameFault s t
          else SameCursor s t ∧ SameRes s t ∧ SameFlag s t)
    | .bcExhausted => SameField s t ∧ SameEngine s t ∧ SameOutside s t ∧ SameConfig s t ∧ SameCursor s t ∧ SameRes s t ∧
        (if s.bcBound = true then SameFault s t else SameFlag s t)
    | .encConfig _ bps bpc => SameField s t ∧ SameEngine s t ∧ SameOutside s t ∧ SameCursor s t ∧ SameRes s t ∧
        SameFlag s t ∧ t.params = s.params ∧
        (let b := (if bps.toInt ≤ 0 then s.params.defaultSymbolBits else bps).toNat
          let c := (if bpc.toInt ≤ 0 then s.params.defaultColorBits else bpc).toNat
          if 1 ≤ b ∧ 1 ≤ c ∧ b + c ≤ 32 then SameFault s t else SameConfig s t)
    | .stateRead _ => SameField s t ∧ SameEngine s t ∧ SameOutside s t ∧ SameConfig s t ∧ SameCursor s t ∧ SameFlag s t ∧
        SameFault s t

/-! ## BitCursor -/

/-- 41_bitcursor.md R133, R131, 70_reset_and_hazards.md R267: `BC_REBIND` binds a copy of its payload with the cursor at its
start, whatever was bound before; more than `MAX_CHUNK_BYTES` bytes fault `BAD_CHUNK`. -/
def Obligations.BcRebindBindsPayload : Prop :=
  ∀ (payload : List Byte) (s : State),
    (payload.length ≤ s.params.maxChunkBytes →
      exec (.bcRebind payload) s = .next { s with
        buf := payload, bcLen := BitVec.ofNat 32 payload.length, bcCur := 0#32, bcBound := true }) ∧
    (s.halted = false → s.params.maxChunkBytes < payload.length →
      exec (.bcRebind payload) s = .next { s with
        fault := 0x80001109#32, faultInfo := BitVec.ofNat 32 payload.length })

/-- 41_bitcursor.md R132, R136, 20_memory.md R61: a `BC_READ` with enough bits left completes: stream bit `BC_CUR+j` is bit
`w-1-j` of `RES`, the bits above are 0, `FLAG` is 0, the cursor advances by `w`, and nothing else changes. -/
def Obligations.BcReadFull : Prop :=
  ∀ (w : BitVec 6) (s : State), s.bcBound = true → 1 ≤ w.toNat → w.toNat ≤ 32 →
    s.bcCur.toNat + w.toNat ≤ 8 * s.bcLen.toNat → s.bcLen.toNat < 2 ^ 29 →
    ∃ t, exec (.bcRead w) s = .next t ∧
      (∀ j, j < w.toNat → t.res.getLsbD (w.toNat - 1 - j) = bufBit s.buf (s.bcCur.toNat + j)) ∧
      t.res.toNat < 2 ^ w.toNat ∧ t.bcCur.toNat = s.bcCur.toNat + w.toNat ∧
      t = { s with res := t.res, resWritten := true, flag := false, flagWritten := true, bcCur := t.bcCur }

/-- 41_bitcursor.md R132, R136, R138: a `BC_READ` with too few bits left completes: `RES` is the next draw, `FLAG` is 1, the
remaining bits are lost, and nothing else changes. -/
def Obligations.BcReadPartial : Prop :=
  ∀ (w : BitVec 6) (s : State), s.bcBound = true → 1 ≤ w.toNat → w.toNat ≤ 32 →
    8 * s.bcLen.toNat < s.bcCur.toNat + w.toNat →
    exec (.bcRead w) s = .next { s with
      res := Config.drawWord s.draws, draws := s.draws + 1, resWritten := true, flag := true, flagWritten := true,
      bcCur := BitVec.ofNat 32 (8 * s.bcLen.toNat) }

/-- 41_bitcursor.md R139: a `BC_READ` on an exhausted BitCursor, an empty buffer included, is partial and no fault: `FLAG` is 1,
`RES` a draw, `BC_CUR` unchanged. -/
def Obligations.BcReadOnExhausted : Prop :=
  ∀ (w : BitVec 6) (s : State), s.bcBound = true → 1 ≤ w.toNat → w.toNat ≤ 32 →
    s.bcCur.toNat = 8 * s.bcLen.toNat →
    ∃ t, exec (.bcRead w) s = .next t ∧ t.flag = true ∧ t.res = Config.drawWord s.draws ∧ t.bcCur = s.bcCur ∧ SameFault s t

/-- 41_bitcursor.md R137: `BcCheck`: `BC_UNBOUND`, then `BC_WIDTH`; each faults and changes nothing else. -/
def Obligations.BcCheckFaultsInOrder : Prop :=
  ∀ (w : BitVec 6) (s : State), s.halted = false →
    (s.bcBound = false → exec (.bcRead w) s = .next { s with fault := 0x80001206#32, faultInfo := 0#32 }) ∧
    (s.bcBound = true → (w.toNat < 1 ∨ 32 < w.toNat) →
      exec (.bcRead w) s = .next { s with fault := 0x80001205#32, faultInfo := w.zeroExtend 32 })

/-- 41_bitcursor.md R140, R134: `BC_EXHAUSTED` sets `FLAG` to whether no bit remains and changes nothing else; with no buffer
bound it faults `BC_UNBOUND`. -/
def Obligations.BcExhaustedReports : Prop :=
  ∀ s : State,
    (s.bcBound = true → exec .bcExhausted s = .next { s with
      flag := decide (8 * s.bcLen.toNat ≤ s.bcCur.toNat), flagWritten := true }) ∧
    (s.halted = false → s.bcBound = false →
      exec .bcExhausted s = .next { s with fault := 0x80001306#32, faultInfo := 0#32 })

/-- 41_bitcursor.md R135: after a partial read the BitCursor is exhausted, and stays so through every later `BC_READ`. -/
def Obligations.PartialReadExhausts : Prop :=
  ∀ (w v : BitVec 6) (s t u : State), s.bcBound = true → 1 ≤ w.toNat → w.toNat ≤ 32 → s.bcLen.toNat < 2 ^ 29 →
    8 * s.bcLen.toNat < s.bcCur.toNat + w.toNat →
    exec (.bcRead w) s = .next t → exec (.bcRead v) t = .next u →
    t.exhausted = true ∧ u.exhausted = true ∧ u.bcCur = t.bcCur

/-- 41_bitcursor.md R141: a full read of `a + b` bits gives what the full reads of `a` and then of `b` bits give, put together,
and leaves the same cursor. -/
def Obligations.CursorReadConcatenates : Prop :=
  ∀ (a b c : BitVec 6) (s t u v : State), s.bcBound = true → 1 ≤ a.toNat → 1 ≤ b.toNat →
    c.toNat = a.toNat + b.toNat → c.toNat ≤ 32 →
    s.bcCur.toNat + c.toNat ≤ 8 * s.bcLen.toNat → s.bcLen.toNat < 2 ^ 29 →
    exec (.bcRead c) s = .next t → exec (.bcRead a) s = .next u → exec (.bcRead b) u = .next v →
    t.res.toNat = u.res.toNat * 2 ^ b.toNat + v.res.toNat ∧ t.bcCur = v.bcCur

/-- 41_bitcursor.md R142: the full reads before exhaustion consume their widths exactly, in order, without overlap or gap: the
values put together are the next bits of the stream, and the cursor has advanced by the sum of the widths. -/
def Obligations.FullReadsConserveBits : Prop :=
  ∀ (ws : List (BitVec 6)) (s : State), s.bcBound = true → s.bcLen.toNat < 2 ^ 29 →
    (∀ w ∈ ws, 1 ≤ w.toNat ∧ w.toNat ≤ 32) →
    s.bcCur.toNat + (ws.map (·.toNat)).sum ≤ 8 * s.bcLen.toNat →
    (readSequence ws s).1.length = ws.length ∧
    joinFields (readSequence ws s).1 = bufBits s.buf s.bcCur.toNat (ws.map (·.toNat)).sum ∧
    (readSequence ws s).2.bcCur.toNat = s.bcCur.toNat + (ws.map (·.toNat)).sum

/-! ## Configuration and the frame command -/

/-- 42_engine.md R161, R162: `ENC_CONFIG` takes the default for every operand that is not positive, writes the three registers
when the widths are valid, `BPO` being their sum, and otherwise faults `BAD_CONFIG` with the sum and writes nothing. -/
def Obligations.EncConfigWritesOrFaults : Prop :=
  ∀ (ecc bps bpc e b c : Word) (s : State),
    e = (if ecc.toInt ≤ 0 then s.params.defaultEccBytes else ecc) →
    b = (if bps.toInt ≤ 0 then s.params.defaultSymbolBits else bps) →
    c = (if bpc.toInt ≤ 0 then s.params.defaultColorBits else bpc) →
    (1 ≤ b.toNat → 1 ≤ c.toNat → b.toNat + c.toNat ≤ 32 →
      exec (.encConfig ecc bps bpc) s = .next { s with cfgEcc := e, cfgBps := b, cfgBpc := c } ∧
      ({ s with cfgEcc := e, cfgBps := b, cfgBpc := c } : State).bpo = b.toNat + c.toNat) ∧
    (s.halted = false → ¬ (1 ≤ b.toNat ∧ 1 ≤ c.toNat ∧ b.toNat + c.toNat ≤ 32) →
      exec (.encConfig ecc bps bpc) s = .next { s with
        fault := 0x80002107#32, faultInfo := BitVec.ofNat 32 (b.toNat + c.toNat) })

/-- 42_engine.md R160: a negative operand of `ENC_CONFIG` does exactly what 0 does. -/
def Obligations.NonPositiveOperandIsDefault : Prop :=
  ∀ (ecc bps bpc : Word) (s : State),
    (ecc.toInt ≤ 0 → exec (.encConfig ecc bps bpc) s = exec (.encConfig 0#32 bps bpc) s) ∧
    (bps.toInt ≤ 0 → exec (.encConfig ecc bps bpc) s = exec (.encConfig ecc 0#32 bpc) s) ∧
    (bpc.toInt ≤ 0 → exec (.encConfig ecc bps bpc) s = exec (.encConfig ecc bps 0#32) s)

/-- 42_engine.md R171: a capacity with no whole stripe, or above `MAX_CAP_BITS`, faults `BAD_CAPACITY` before the source is
queried, and changes nothing else. -/
def Obligations.EncFrameBadCapacity : Prop :=
  ∀ (cap canvas : Word) (s : State), s.halted = false →
    (cap.toNat < s.cfgBps.toNat + s.cfgBpc.toNat ∨ s.params.maxCapBits < cap.toNat) →
    exec (.encFrame cap canvas) s = .next { s with fault := 0x80002208#32, faultInfo := cap }

/-- 42_engine.md R172: when the source reports no data, `FRAME_STATUS` becomes `END_OF_STREAM` and nothing else of the block
changes; only the source's one answer is used up. -/
def Obligations.EndOfStreamChangesOnlyStatus : Prop :=
  ∀ (cap canvas : Word) (s : State) (rest : List Bool),
    s.cfgBps.toNat + s.cfgBpc.toNat ≤ cap.toNat → cap.toNat ≤ s.params.maxCapBits →
    s.oracles.srcGood = false :: rest →
    exec (.encFrame cap canvas) s = .next { s with
      frameStatus := .endOfStream, oracles := { s.oracles with srcGood := rest } }

/-- 42_engine.md R170, R173: when the source has data the frame starts: the collaborators are opened, the BitField is `cap` zeros
whatever it was, the BitCursor is unbound, the interleaver and the drain are at their start, and the engine is in `PULL`. -/
def Obligations.EncFrameStartsFrame : Prop :=
  ∀ (cap canvas : Word) (s : State) (rest : List Bool),
    s.cfgBps.toNat + s.cfgBpc.toNat ≤ cap.toNat → cap.toNat ≤ s.params.maxCapBits →
    s.oracles.srcGood = true :: rest →
    exec (.encFrame cap canvas) s = .next { s with
      oracles := { s.oracles with srcGood := rest }
      events := s.events ++ [.imgOpen s.cfgBps s.cfgBpc s.params.darkMode s.params.colorMode canvas,
        .fecOpen s.cfgEcc s.params.eccBlockSize]
      bfCap := cap, field := [], bfValid := true
      bcBound := false, bcLen := 0#32, bcCur := 0#32, buf := []
      phase := .fillSymbols, pos := 0#32, dpos := 0#32, cellCount := 0#32, frameStatus := .busy, eng := .pull }

/-- 42_engine.md R194, the model's log 14: an `ENC_FRAME` whose source has not answered waits on the port with no effect. -/
def Obligations.EncFrameWaitsForSource : Prop :=
  ∀ (s : State) (c : Transaction) (rest : List Transaction) (cap canvas : Word),
    s.turn = .host → s.port = c :: rest → s.halted = false → s.eng = .idle → decode c = .instr (.encFrame cap canvas) →
    s.cfgBps.toNat + s.cfgBpc.toNat ≤ cap.toNat → cap.toNat ≤ s.params.maxCapBits → s.oracles.srcGood = [] →
    step s = .next s.nextTurn

/-- 42_engine.md R170 to R172: the frame of `ENC_FRAME`'s acceptance step: `RES`, `FLAG` and the configuration are never written,
the FEC wrapper is not queried, and unless the frame starts nothing of the BitField, the BitCursor or the events changes. -/
def Obligations.EncFrameAcceptanceFrame : Prop :=
  ∀ (cap canvas : Word) (s t : State), exec (.encFrame cap canvas) s = .next t →
    SameConfig s t ∧ SameRes s t ∧ SameFlag s t ∧ t.draws = s.draws ∧ t.port = s.port ∧ t.turns = s.turns ∧
    t.oracles.fecGood = s.oracles.fecGood ∧ t.oracles.fecCount = s.oracles.fecCount ∧
    t.oracles.fecStream = s.oracles.fecStream ∧
    (t.frameStatus ≠ .busy → s.eng = .idle →
      SameField s t ∧ SameCursor s t ∧ t.events = s.events ∧ t.eng = .idle ∧ t.phase = s.phase ∧ t.pos = s.pos ∧
      t.dpos = s.dpos ∧ t.cellCount = s.cellCount)

/-! ## STATE_READ -/

/-- 43_state_access.md R220, R221: `STATE_READ` completes in every state and copies the register with that number into `RES`;
reserved numbers give 0. -/
def Obligations.StateReadTable : Prop :=
  ∀ (r : Word) (s : State), ∃ t, exec (.stateRead r) s = .next t ∧
    (r = 0#32 → t.res = s.cfgEcc) ∧ (r = 1#32 → t.res = s.cfgBps) ∧ (r = 2#32 → t.res = s.cfgBpc) ∧
    (r = 3#32 → t.res = s.cfgBps + s.cfgBpc) ∧
    (r = 4#32 → t.res = if s.bfValid then 1#32 else 0#32) ∧ (r = 5#32 → t.res = s.bfCap) ∧
    (r = 6#32 → t.res = if s.bcBound then 1#32 else 0#32) ∧ (r = 7#32 → t.res = s.bcLen) ∧ (r = 8#32 → t.res = s.bcCur) ∧
    (r = 9#32 → t.res = match s.eng with | .idle => 0#32 | .pull => 1#32 | .fill => 2#32 | .drain => 3#32) ∧
    (r = 10#32 → t.res = match s.phase with | .fillSymbols => 0#32 | .fillColors => 1#32 | .complete => 2#32) ∧
    (r = 11#32 → t.res = s.pos) ∧ (r = 12#32 → t.res = s.dpos) ∧
    (r = 13#32 → t.res = match s.frameStatus with | .noneYet => 0#32 | .frame => 1#32 | .endOfStream => 2#32 | .busy => 3#32) ∧
    (r = 14#32 → t.res = s.cellCount) ∧
    (r = 15#32 → t.res = if s.resWritten then s.res else Config.drawWord s.draws) ∧
    (r = 16#32 → t.res = if (if s.flagWritten then s.flag else Config.drawFlag s.draws) then 1#32 else 0#32) ∧
    (r = 17#32 → t.res = s.fault) ∧ (r = 18#32 → t.res = s.faultInfo) ∧
    (19 ≤ r.toNat → t.res = 0#32)

/-- 43_state_access.md R221: `STATE_READ` changes no register but `RES`. -/
def Obligations.StateReadChangesOnlyRes : Prop :=
  ∀ (r : Word) (s : State), ∃ t, exec (.stateRead r) s = .next t ∧
    t = { s with res := t.res, resWritten := true, draws := t.draws } ∧
    (s.resWritten = true → s.flagWritten = true → t.draws = s.draws) ∧
    (s.resWritten = true → r = 15#32 → t.res = s.res)

/-! ## The engine -/

/-- 42_engine.md R181: the `PULL` step: to `DRAIN` when the wrapper is exhausted (not good, or 0 bytes), `BAD_CHUNK` for a chunk
that is too large, else the chunk is bound and the engine goes to `FILL`. -/
def Obligations.PullStep : Prop :=
  ∀ (s : State), s.eng = .pull → s.halted = false →
    (∀ gs, s.oracles.fecGood = false :: gs →
      engineStep s = .next { s with eng := .drain, oracles := { s.oracles with fecGood := gs } }) ∧
    (∀ gs n ns, s.oracles.fecGood = true :: gs → s.oracles.fecCount = n :: ns →
      (n = 0#32 → engineStep s = .next { s with
        eng := .drain, oracles := { s.oracles with fecGood := gs, fecCount := ns } }) ∧
      (s.params.maxChunkBytes < n.toNat → n ≠ 0#32 → engineStep s = .next { s with
        fault := 0xC0002209#32, faultInfo := n, oracles := { s.oracles with fecGood := gs, fecCount := ns } }) ∧
      (1 ≤ n.toNat → n.toNat ≤ s.params.maxChunkBytes → n.toNat ≤ s.oracles.fecStream.length →
        engineStep s = .next { s with
          eng := .fill
          buf := s.oracles.fecStream.take n.toNat, bcLen := n, bcCur := 0#32, bcBound := true
          oracles := ⟨s.oracles.srcGood, gs, ns, s.oracles.fecStream.drop n.toNat⟩ }))

/-- 42_engine.md R180, the model's log 15: a `PULL` step waits, with no effect, while a query it makes has no answer yet. -/
def Obligations.PullWaitsForAnswers : Prop :=
  ∀ (s : State), s.eng = .pull →
    (s.oracles.fecGood = [] → engineStep s = .next s) ∧
    (∀ gs, s.oracles.fecGood = true :: gs → s.oracles.fecCount = [] → engineStep s = .next s) ∧
    (∀ gs n ns, s.oracles.fecGood = true :: gs → s.oracles.fecCount = n :: ns → n.toNat ≤ s.params.maxChunkBytes →
      s.oracles.fecStream.length < n.toNat → engineStep s = .next s)

/-- 42_engine.md R183, R184: the cursor side of the `FILL` step: an exhausted chunk sends the engine to `PULL`; otherwise one read of
`BPS` bits (symbols) or `BPC` bits (colors) is made, full or partial, without touching `RES` or `FLAG`. -/
def Obligations.FillStepReads : Prop :=
  ∀ (s : State) (w : Nat), s.Inv → s.eng = .fill → s.halted = false →
    w = (if s.phase = .fillSymbols then s.cfgBps.toNat else s.cfgBpc.toNat) →
    (8 * s.bcLen.toNat ≤ s.bcCur.toNat → engineStep s = .next { s with eng := .pull }) ∧
    (s.bcCur.toNat < 8 * s.bcLen.toNat →
      ∃ t, engineStep s = .next t ∧
        (s.bcCur.toNat + w ≤ 8 * s.bcLen.toNat → t.bcCur.toNat = s.bcCur.toNat + w) ∧
        (8 * s.bcLen.toNat < s.bcCur.toNat + w → t.bcCur.toNat = 8 * s.bcLen.toNat) ∧
        t.bcBound = s.bcBound ∧ t.bcLen = s.bcLen ∧ t.buf = s.buf ∧
        SameRes s t ∧ SameFlag s t ∧ SameConfig s t ∧ SameFault s t ∧ SameOutside s t)

/-- 42_engine.md R185: the write of the `FILL` step: nothing for a partial read; in `FillSymbols` the slot's first `BPC` bits are 0
and its last `BPS` bits are the bits read; in `FillColors` the slot's first `BPC` bits are the bits read; no other bit changes, and
neither do `BF_VALID` and `BF_CAP`. -/
def Obligations.FillStepWrites : Prop :=
  ∀ (s t : State), s.Inv → s.eng = .fill → s.halted = false → s.exhausted = false → engineStep s = .next t →
    (s.phase = .fillSymbols → s.bcCur.toNat + s.cfgBps.toNat ≤ 8 * s.bcLen.toNat →
      (∀ j, j < s.cfgBpc.toNat → t.field.read (s.pos.toNat + j) = false) ∧
      (∀ j, j < s.cfgBps.toNat →
        t.field.read (s.pos.toNat + s.cfgBpc.toNat + j) = bufBit s.buf (s.bcCur.toNat + j)) ∧
      (∀ i, i < s.pos.toNat ∨ s.pos.toNat + s.bpo ≤ i → t.field.read i = s.field.read i)) ∧
    (s.phase = .fillColors → s.bcCur.toNat + s.cfgBpc.toNat ≤ 8 * s.bcLen.toNat →
      (∀ j, j < s.cfgBpc.toNat → t.field.read (s.pos.toNat + j) = bufBit s.buf (s.bcCur.toNat + j)) ∧
      (∀ i, i < s.pos.toNat ∨ s.pos.toNat + s.cfgBpc.toNat ≤ i → t.field.read i = s.field.read i)) ∧
    (8 * s.bcLen.toNat < s.bcCur.toNat + s.readWidth → ∀ i, t.field.read i = s.field.read i) ∧
    t.bfValid = s.bfValid ∧ t.bfCap = s.bfCap

/-- 42_engine.md R186: the stripe advance: `POS` advances by `BPO` after every read, partial or not; at the stripe limit the symbols
hand over to the colors with a fresh `PULL`, and the colors to `Complete` and the drain. -/
def Obligations.FillStepAdvances : Prop :=
  ∀ (s t : State), s.Inv → s.eng = .fill → s.halted = false → s.exhausted = false → engineStep s = .next t →
    (s.pos.toNat + s.bpo < s.stripeLimit →
      t.pos.toNat = s.pos.toNat + s.bpo ∧ t.phase = s.phase ∧ t.eng = .fill) ∧
    (s.pos.toNat + s.bpo = s.stripeLimit → s.phase = .fillSymbols →
      t.pos = 0#32 ∧ t.phase = .fillColors ∧ t.eng = .pull) ∧
    (s.pos.toNat + s.bpo = s.stripeLimit → s.phase = .fillColors →
      t.pos.toNat = s.stripeLimit ∧ t.phase = .complete ∧ t.eng = .drain) ∧
    s.pos.toNat + s.bpo ≤ s.stripeLimit ∧ s.phase ≠ .complete ∧
    t.dpos = s.dpos ∧ t.cellCount = s.cellCount ∧ t.frameStatus = s.frameStatus

/-- 42_engine.md R201, R185, 90_conflicts.md C3: a symbol written `BPO` wide and a color written `BPC` wide at the same place make the
cell `color * 2^BPS + symbol`: the color write does not clobber the symbol. -/
def Obligations.SymbolThenColorMakesCell : Prop :=
  ∀ (s : State) (o : Nat) (symbol color : Word), Memory.wf s.field →
    s.cfgBps.toNat + s.cfgBpc.toNat ≤ 32 →
    symbol.toNat < 2 ^ s.cfgBps.toNat → color.toNat < 2 ^ s.cfgBpc.toNat →
    (((s.fieldWrite o s.bpo symbol).fieldWrite o s.cfgBpc.toNat color).fieldRead o s.bpo).toNat =
      color.toNat * 2 ^ s.cfgBps.toNat + symbol.toNat

/-- 42_engine.md R187, R188: the `DRAIN` step: below the stripe limit it sends one cell, the `BPO` bits at `DPOS`, and advances; at
the limit it ends the frame: the BitField and the BitCursor are gone, the engine is idle, and `PHASE`, `POS`, `DPOS`,
`CELL_COUNT` keep their values. -/
def Obligations.DrainStep : Prop :=
  ∀ (s : State), s.Inv → s.eng = .drain → s.halted = false →
    (s.dpos.toNat < s.stripeLimit → engineStep s = .next { s with
      events := s.events ++ [.imgWrite (s.fieldRead s.dpos.toNat s.bpo)]
      cellCount := s.cellCount + 1#32
      dpos := BitVec.ofNat 32 (s.dpos.toNat + s.bpo) }) ∧
    (s.dpos.toNat = s.stripeLimit → engineStep s = .next { s with
      frameStatus := .frame
      bfValid := false, bfCap := 0#32, field := []
      bcBound := false, bcLen := 0#32, bcCur := 0#32, buf := []
      eng := .idle })

/-- 70_reset_and_hazards.md R266, 42_engine.md R188, 40_bitfield.md R103, 41_bitcursor.md R137, R140: in the state a frame end
leaves, `BF_READ` and `BF_WRITE` fault `BF_UNINIT`, and `BC_READ` and `BC_EXHAUSTED` fault `BC_UNBOUND`. -/
def Obligations.AfterFrameAccessFaults : Prop :=
  ∀ (s t : State) (v o : Word) (w : BitVec 6), s.eng = .drain → s.halted = false → s.dpos.toNat = s.stripeLimit →
    engineStep s = .next t →
    exec (.bfRead o w) t = .next { t with fault := 0x80000304#32, faultInfo := 0#32 } ∧
    exec (.bfWrite v o w) t = .next { t with fault := 0x80000204#32, faultInfo := 0#32 } ∧
    exec (.bcRead w) t = .next { t with fault := 0x80001206#32, faultInfo := 0#32 } ∧
    exec .bcExhausted t = .next { t with fault := 0x80001306#32, faultInfo := 0#32 }

/-- 42_engine.md R200: from the start of the drain the block emits exactly `STRIPES` cells, slot 0 first, cell `k` being the `BPO`
bits at `k*BPO` as the interleaver left them, and then ends the frame with `CELL_COUNT = STRIPES`. The premise `turns = []` is
the model's default order of steps, in which the engine takes every turn while it is enabled (DESIGN CHOICE, log 3). -/
def Obligations.DrainEmitsEveryStripe : Prop :=
  ∀ s : State, s.Inv → s.eng = .drain → s.halted = false → s.turns = [] → s.dpos = 0#32 →
    Sys2Proof.core.run (s.stripes + 1) s = .next { s with
      events := s.events ++ (List.range s.stripes).map fun k => ExtEvent.imgWrite (s.fieldRead (k * s.bpo) s.bpo)
      cellCount := BitVec.ofNat 32 s.stripes
      dpos := BitVec.ofNat 32 s.stripeLimit
      frameStatus := .frame
      bfValid := false, bfCap := 0#32, field := []
      bcBound := false, bcLen := 0#32, bcCur := 0#32, buf := []
      eng := .idle }

/-- 42_engine.md R203: every engine step that does not wait for an answer halts the block or brings the frame nearer its end. -/
def Obligations.EngineStepMakesProgress : Prop :=
  ∀ s t : State, s.Inv → s.engineEnabled = true → engineStep s = .next t → t ≠ s →
    t.halted = true ∨ t.frameMeasure < s.frameMeasure

/-- 42_engine.md R203: a frame whose queries are answered ends, or the block halts, within `frameMeasure` engine steps. The last
premise says that no step of the frame waits; it asks this only of the states up to which the engine has been enabled all
along, so of nothing after the first idle or halted state. The premise `turns = []` is the model's default order of steps, in
which the engine takes every turn while it is enabled (DESIGN CHOICE, log 3). -/
def Obligations.AnsweredFrameEnds : Prop :=
  ∀ s : State, s.Inv → s.turns = [] →
    (∀ k t, Sys2Proof.core.run k s = .next t →
      (∀ j u, j ≤ k → Sys2Proof.core.run j s = .next u → u.engineEnabled = true) → step t ≠ .next t) →
    ∃ k t, k ≤ s.frameMeasure ∧ Sys2Proof.core.run k s = .next t ∧ (t.eng = .idle ∨ t.halted = true)

/-! ## Whole-machine rules -/

/-- 10_state.md R24: `RES` changes only by reset or by an executed `BF_READ`, `BC_READ` or `STATE_READ`; `FLAG` only by reset or by
an executed `BC_READ` or `BC_EXHAUSTED`; no engine step writes either. -/
def Obligations.ResultWrittenOnlyByItsCommands : Prop :=
  ∀ s t : State, step s = .next t →
    (¬ SameRes s t → s.turn = .reset ∨ (s.turn = .host ∧ ∃ c rest, s.port = c :: rest ∧
      ((∃ o w, decode c = .instr (.bfRead o w)) ∨ (∃ w, decode c = .instr (.bcRead w)) ∨
        ∃ r, decode c = .instr (.stateRead r)))) ∧
    (¬ SameFlag s t → s.turn = .reset ∨ (s.turn = .host ∧ ∃ c rest, s.port = c :: rest ∧
      ((∃ w, decode c = .instr (.bcRead w)) ∨ decode c = .instr .bcExhausted)))

/-- 10_state.md R22: the configuration registers are written only by `ENC_CONFIG` and by reset; the parameters by nothing. -/
def Obligations.ConfigWrittenOnlyByEncConfig : Prop :=
  ∀ s t : State, step s = .next t →
    t.params = s.params ∧
    (¬ SameConfig s t → s.turn = .reset ∨ (s.turn = .host ∧ s.eng = .idle ∧ ∃ c rest, s.port = c :: rest ∧
      ∃ e b p, decode c = .instr (.encConfig e b p)))

/-- 20_memory.md R76, 42_engine.md R182, R204: the protected stream is only ever consumed from its front, in order, and the bytes
consumed by a step are the chunk it binds, with the cursor at bit 0. -/
def Obligations.StreamConsumedInOrder : Prop :=
  ∀ s t : State, step s = .next t →
    ∃ chunk, s.oracles.fecStream = chunk ++ t.oracles.fecStream ∧
      (chunk ≠ [] → s.turn = .engine ∧ s.eng = .pull ∧ t.eng = .fill ∧ t.buf = chunk ∧ t.bcCur = 0#32 ∧ t.bcBound = true)

/-- 42_engine.md R187, R191: events are only ever appended; a cell is written only by a `DRAIN` step, one at a time. -/
def Obligations.CellsWrittenOnlyByDrain : Prop :=
  ∀ s t : State, step s = .next t →
    ∃ sent, t.events = s.events ++ sent ∧
      (∀ cell, ExtEvent.imgWrite cell ∈ sent → s.turn = .engine ∧ s.eng = .drain ∧ s.halted = false ∧
        sent = [ExtEvent.imgWrite cell] ∧ t.cellCount = s.cellCount + 1#32)

/-- 60_exceptions.md R231: faults are precise: a command that raises a fault has no effect but the fault record, which names its
opcode and that the host raised it. -/
def Obligations.CommandFaultsArePrecise : Prop :=
  ∀ (i : Instr) (s t : State), s.halted = false → exec i s = .next t → t.halted = true →
    t = { s with fault := t.fault, faultInfo := t.faultInfo } ∧
    t.fault.extractLsb' 8 8 = i.op.code ∧ t.fault.getLsbD 30 = false ∧ t.fault.extractLsb' 16 14 = 0#14
end

