-- ==== Sys2Proof/Laws/Decode.lean ====
section
/-! SUPPORT. The laws of the command word, the opcode map and the decoder. -/

namespace Sys2Proof

/-- The opcode map finds a row exactly by its code. -/
theorem Op.ofCode_eq_some (c : BitVec 8) (op : Op) : Op.ofCode c = some op ↔ c = op.code := by
  constructor
  · intro h
    have hc := List.find?_some h
    exact (beq_iff_eq.1 hc).symm
  · rintro rfl
    cases op <;> decide

/-- The opcode of a command word. -/
@[simp] theorem commandWord_opc (op : Op) (w : BitVec 6) : (commandWord op w).extractLsb' 24 8 = op.code := by
  refine BitVec.eq_of_getLsbD_eq fun i hi => ?_
  simp only [BitVec.getLsbD_extractLsb', commandWord, BitVec.getLsbD_append]
  have h1 : ¬ 24 + i < 6 := by omega
  have h2 : ¬ 24 + i - 6 < 18 := by omega
  have h3 : 24 + i - 6 - 18 = i := by omega
  simp [h1, h2, h3, hi]

/-- The reserved field of a command word. -/
@[simp] theorem commandWord_rsv (op : Op) (w : BitVec 6) : (commandWord op w).extractLsb' 6 18 = 0#18 := by
  refine BitVec.eq_of_getLsbD_eq fun i hi => ?_
  simp only [BitVec.getLsbD_extractLsb', commandWord, BitVec.getLsbD_append]
  have h1 : ¬ 6 + i < 6 := by omega
  simp [h1, hi]

/-- The width field of a command word. -/
@[simp] theorem commandWord_width (op : Op) (w : BitVec 6) : (commandWord op w).extractLsb' 0 6 = w := by
  refine BitVec.eq_of_getLsbD_eq fun i hi => ?_
  simp only [BitVec.getLsbD_extractLsb', commandWord, BitVec.getLsbD_append]
  simp [hi]

/-- A word with a row's opcode and no reserved bit is that row's command word at its width. -/
theorem eq_commandWord (c : Word) (op : Op) (h1 : c.extractLsb' 24 8 = op.code) (h2 : c.extractLsb' 6 18 = 0#18) :
    c = commandWord op (c.extractLsb' 0 6) := by
  unfold commandWord
  rw [← h1, ← h2]
  refine BitVec.eq_of_getLsbD_eq fun i hi => ?_
  simp only [BitVec.getLsbD_append, BitVec.getLsbD_extractLsb']
  by_cases h : i < 6
  · simp [h]
  · by_cases h' : i - 6 < 18
    · simp only [h, h', if_false, if_true, decide_true, Bool.true_and, decide_false]
      congr 1; omega
    · have h3 : i - 6 - 18 < 8 := by omega
      simp only [h, h', h3, if_false, decide_false, decide_true, Bool.true_and]
      congr 1; omega

/-- A legal command word is decoded by its row. -/
theorem decode_of_op (c : Transaction) (op : Op) (h1 : c.opc = op.code) (h2 : c.rsv = 0#18)
    (h3 : op.takesWidth = true ∨ c.width = 0#6) : decode c = decodeOperands op c := by
  unfold decode
  rw [(Op.ofCode_eq_some _ op).2 h1]
  simp only [h2]
  rcases h3 with h3 | h3 <;> simp [h3]

/-- What a decoded transaction looks like. -/
theorem decode_instr {c : Transaction} {i : Instr} (h : decode c = .instr i) :
    ∃ op, c.opc = op.code ∧ c.rsv = 0#18 ∧ (op.takesWidth = true ∨ c.width = 0#6) ∧ decodeOperands op c = .instr i := by
  unfold decode at h
  split at h
  · cases h
  · rename_i op ho
    split at h
    · cases h
    · split at h
      · cases h
      · rename_i h1 h2
        refine ⟨op, (Op.ofCode_eq_some _ _).1 ho, by simpa using h1, ?_, h⟩
        simp only [Bool.and_eq_true, Bool.not_eq_true', bne_iff_ne, ne_eq, not_and, Decidable.not_not] at h2
        cases ht : op.takesWidth
        · exact .inr (h2 ht)
        · exact .inl rfl

/-- The row that decodes an instruction is the instruction's own. -/
theorem decodeOperands_op {op : Op} {c : Transaction} {i : Instr} (h : decodeOperands op c = .instr i) : i.op = op := by
  cases op <;> simp only [decodeOperands] at h
  case bcRebind => split at h <;> cases h; rfl
  all_goals cases h; rfl

/-- A decoded transaction has its instruction's opcode. -/
theorem decode_opc {c : Transaction} {i : Instr} (h : decode c = .instr i) : c.opc = i.op.code := by
  obtain ⟨op, h1, _, _, h4⟩ := decode_instr h
  rw [decodeOperands_op h4, h1]

/-- Only a `BC_REBIND` whose payload is not `OP0` bytes long is rejected for its payload (30_encoding.md R83). -/
theorem decode_payloadLength {c : Transaction} (h : decode c = .rejected .payloadLength) :
    c.opc = Op.bcRebind.code ∧ c.payload.length ≠ c.op0.toNat := by
  unfold decode at h
  split at h
  · cases h
  · rename_i op ho
    split at h
    · cases h
    · split at h
      · cases h
      · cases op <;> simp only [decodeOperands] at h
        case bcRebind =>
          split at h
          · cases h
          · exact ⟨(Op.ofCode_eq_some _ _).1 ho, ‹_›⟩
        all_goals cases h

end Sys2Proof
end

