-- ==== Sys2Proof/Laws/Memory.lean ====
section
/-! SUPPORT. The laws of the bits of FIELD (a read after a write, the canonical form) and of the bits of BUF. -/

namespace Sys2Proof.Machine

theorem Memory.wf_nil : Memory.wf [] := ⟨List.Pairwise.nil, fun _ h => absurd h List.not_mem_nil⟩

theorem Memory.wf_tail {c : Nat × Bool} {m : Memory} (h : Memory.wf (c :: m)) : Memory.wf m :=
  ⟨(List.pairwise_cons.1 h.1).2, fun d hd => h.2 d (List.mem_cons_of_mem _ hd)⟩

theorem Memory.wf_head_lt {c : Nat × Bool} {m : Memory} (h : Memory.wf (c :: m)) : ∀ d ∈ m, c.1 < d.1 :=
  (List.pairwise_cons.1 h.1).1

theorem Memory.wf_cons {c : Nat × Bool} {m : Memory} (hc : c.2 = true) (hlt : ∀ d ∈ m, c.1 < d.1)
    (h : Memory.wf m) : Memory.wf (c :: m) :=
  ⟨List.pairwise_cons.2 ⟨hlt, h.1⟩, fun d hd => by
    rcases List.mem_cons.1 hd with rfl | hd
    exacts [hc, h.2 d hd]⟩

/-- An offset below every listed one is unlisted, so its bit is 0. -/
theorem Memory.read_of_lt {m : Memory} {i : Nat} (h : ∀ d ∈ m, i < d.1) : m.read i = false := by
  induction m with
  | nil => rfl
  | cons c m ih =>
    have hi : i ≠ c.1 := Nat.ne_of_lt (h c (by simp))
    simp only [Memory.read, if_neg hi]
    exact ih fun d hd => h d (List.mem_cons_of_mem _ hd)

/-- Every entry after a write was there before, or is the written one. -/
theorem Memory.mem_write {m : Memory} {i : Nat} {b : Bool} {d : Nat × Bool} (h : d ∈ m.write i b) :
    d ∈ m ∨ (d = (i, true) ∧ b = true) := by
  induction m with
  | nil =>
    cases b
    · simp [Memory.write] at h
    · right; simpa [Memory.write] using h
  | cons c m ih =>
    obtain ⟨a, x⟩ := c
    simp only [Memory.write] at h
    split at h
    · cases b
      · left; simpa using h
      · rw [if_pos rfl] at h
        rcases List.mem_cons.1 h with h | h
        · right; exact ⟨h, rfl⟩
        · left; exact h
    · split at h
      · rename_i ha
        cases b
        · left; exact List.mem_cons_of_mem _ (by simpa using h)
        · rw [if_pos rfl] at h
          rcases List.mem_cons.1 h with h | h
          · right; subst ha; exact ⟨h, rfl⟩
          · left; exact List.mem_cons_of_mem _ h
      · rcases List.mem_cons.1 h with h | h
        · left; rw [h]; simp
        · rcases ih h with h | h
          · left; exact List.mem_cons_of_mem _ h
          · right; exact h

/-- A write keeps the canonical form. -/
theorem Memory.write_wf {m : Memory} (h : Memory.wf m) (i : Nat) (b : Bool) : Memory.wf (m.write i b) := by
  induction m with
  | nil =>
    cases b
    · exact Memory.wf_nil
    · exact Memory.wf_cons rfl (by simp) Memory.wf_nil
  | cons c m ih =>
    obtain ⟨a, x⟩ := c
    have hlt := Memory.wf_head_lt h
    simp only [Memory.write]
    split
    · rename_i hia
      cases b
      · simpa using h
      · refine Memory.wf_cons rfl (fun d hd => ?_) h
        rcases List.mem_cons.1 hd with rfl | hd
        · exact hia
        · exact Nat.lt_trans hia (hlt d hd)
    · split
      · cases b
        · simpa using Memory.wf_tail h
        · exact Memory.wf_cons rfl hlt (Memory.wf_tail h)
      · refine Memory.wf_cons (h.2 _ (by simp)) (fun d hd => ?_) (ih (Memory.wf_tail h))
        rcases Memory.mem_write hd with hd | ⟨rfl, -⟩
        · exact hlt d hd
        · simp only; omega

/-- A read at the written offset gives the written bit. -/
theorem Memory.read_write_same {m : Memory} (h : Memory.wf m) (i : Nat) (b : Bool) : (m.write i b).read i = b := by
  induction m with
  | nil => cases b <;> simp [Memory.write, Memory.read]
  | cons c m ih =>
    obtain ⟨a, x⟩ := c
    have hlt := Memory.wf_head_lt h
    simp only [Memory.write]
    split
    · rename_i hia
      cases b
      · refine Memory.read_of_lt fun d hd => ?_
        rcases List.mem_cons.1 (by simpa using hd) with rfl | hd
        · exact hia
        · exact Nat.lt_trans hia (hlt d hd)
      · simp [Memory.read]
    · split
      · rename_i hia
        subst hia
        cases b
        · simpa using Memory.read_of_lt hlt
        · simp [Memory.read]
      · rename_i hia
        simp only [Memory.read, if_neg hia]
        exact ih (Memory.wf_tail h)

/-- A write leaves every other bit alone. -/
theorem Memory.read_write_other {i j : Nat} (hij : j ≠ i) (m : Memory) (b : Bool) : (m.write i b).read j = m.read j := by
  induction m with
  | nil => cases b <;> simp [Memory.write, Memory.read, hij]
  | cons c m ih =>
    obtain ⟨a, x⟩ := c
    simp only [Memory.write]
    split
    · cases b <;> simp [Memory.read, hij]
    · split
      · rename_i hia
        subst hia
        cases b <;> simp [Memory.read, hij]
      · simp only [Memory.read]
        split
        · rfl
        · exact ih

theorem Memory.writeBits_wf {m : Memory} (h : Memory.wf m) (o v w : Nat) : Memory.wf (m.writeBits o v w) := by
  induction w generalizing m o with
  | zero => exact h
  | succ w ih => exact ih (Memory.write_wf h o _) (o + 1)

/-- Every entry after a `w`-bit write at `o` was there before, or lies in `[o, o+w)`. -/
theorem Memory.mem_writeBits {m : Memory} {o v w : Nat} {d : Nat × Bool} (h : d ∈ m.writeBits o v w) :
    d ∈ m ∨ (o ≤ d.1 ∧ d.1 < o + w) := by
  induction w generalizing m o with
  | zero => left; exact h
  | succ w ih =>
    rcases ih (m := m.write o (v.testBit w)) h with h | h
    · rcases Memory.mem_write h with h | ⟨rfl, -⟩
      · left; exact h
      · right; simp
    · right; omega

/-- A `w`-bit write leaves every bit outside `[o, o+w)` alone (40_bitfield.md R102). -/
theorem Memory.read_writeBits_outside {o w i : Nat} (hi : i < o ∨ o + w ≤ i) (m : Memory) (v : Nat) :
    (m.writeBits o v w).read i = m.read i := by
  induction w generalizing m o with
  | zero => rfl
  | succ w ih =>
    simp only [Memory.writeBits]
    rw [ih (by omega), Memory.read_write_other (by omega)]

/-- A `w`-bit write puts value bit `w-1-j` at offset `o+j` (40_bitfield.md R102). -/
theorem Memory.read_writeBits_inside {m : Memory} (h : Memory.wf m) (o v : Nat) {w j : Nat} (hj : j < w) :
    (m.writeBits o v w).read (o + j) = v.testBit (w - 1 - j) := by
  induction w generalizing m o j with
  | zero => omega
  | succ w ih =>
    simp only [Memory.writeBits]
    cases j with
    | zero =>
      rw [Memory.read_writeBits_outside (by omega), Nat.add_zero, Memory.read_write_same h]
      simp
    | succ j =>
      rw [show o + (j + 1) = o + 1 + j by omega, ih (Memory.write_wf h o _) (o + 1) (by omega)]
      congr 1; omega

/-- A read of `w` bits is below `2^w`. -/
theorem Memory.readBits_lt (m : Memory) (o w : Nat) : m.readBits o w < 2 ^ w := by
  induction w generalizing o with
  | zero => simp [Memory.readBits]
  | succ w ih =>
    have h := ih (o + 1)
    have hb : (m.read o).toNat ≤ 1 := Bool.toNat_le _
    simp only [Memory.readBits, Nat.pow_succ]
    have := Nat.mul_le_mul_right (2 ^ w) hb
    omega

/-- Bit `w-1-j` of a `w`-bit read at `o` is the bit at offset `o+j` (20_memory.md R60). -/
theorem Memory.testBit_readBits (m : Memory) (o : Nat) {w j : Nat} (hj : j < w) :
    (m.readBits o w).testBit (w - 1 - j) = m.read (o + j) := by
  induction w generalizing o j with
  | zero => omega
  | succ w ih =>
    have hlt := Memory.readBits_lt m (o + 1) w
    simp only [Memory.readBits]
    rw [Nat.mul_comm]
    cases j with
    | zero =>
      rw [Nat.add_sub_cancel, Nat.sub_zero, Nat.testBit_two_pow_mul_add _ hlt]
      cases m.read o <;> simp
    | succ j =>
      rw [show w + 1 - 1 - (j + 1) = w - 1 - j by omega, Nat.testBit_two_pow_mul_add _ hlt,
        if_pos (by omega), ih (o + 1) (by omega)]
      congr 1; omega

/-- Two `w`-bit reads agree when their bits do. -/
theorem Memory.readBits_congr {m m' : Memory} {o w : Nat} (h : ∀ j, j < w → m.read (o + j) = m'.read (o + j)) :
    m.readBits o w = m'.readBits o w := by
  induction w generalizing o with
  | zero => rfl
  | succ w ih =>
    simp only [Memory.readBits]
    rw [ih fun j hj => by simpa [Nat.add_assoc, Nat.add_comm 1 j] using h (j + 1) (by omega)]
    rw [show m.read o = m'.read o by simpa using h 0 (by omega)]

theorem bufBits_lt (buf : List Byte) (c w : Nat) : bufBits buf c w < 2 ^ w := by
  induction w generalizing c with
  | zero => simp [bufBits]
  | succ w ih =>
    have h := ih (c + 1)
    have hb : (bufBit buf c).toNat ≤ 1 := Bool.toNat_le _
    simp only [bufBits, Nat.pow_succ]
    have := Nat.mul_le_mul_right (2 ^ w) hb
    omega

/-- Bit `w-1-j` of a `w`-bit cursor read at `c` is stream bit `c+j` (20_memory.md R61). -/
theorem testBit_bufBits (buf : List Byte) (c : Nat) {w j : Nat} (hj : j < w) :
    (bufBits buf c w).testBit (w - 1 - j) = bufBit buf (c + j) := by
  induction w generalizing c j with
  | zero => omega
  | succ w ih =>
    have hlt := bufBits_lt buf (c + 1) w
    simp only [bufBits]
    rw [Nat.mul_comm]
    cases j with
    | zero =>
      rw [Nat.add_sub_cancel, Nat.sub_zero, Nat.testBit_two_pow_mul_add _ hlt]
      cases bufBit buf c <;> simp
    | succ j =>
      rw [show w + 1 - 1 - (j + 1) = w - 1 - j by omega, Nat.testBit_two_pow_mul_add _ hlt,
        if_pos (by omega), ih (c + 1) (by omega)]
      congr 1; omega

/-- The bits of `a + b` positions are those of the first `a`, then those of the next `b`. -/
theorem bufBits_add (buf : List Byte) (c a b : Nat) :
    bufBits buf c (a + b) = bufBits buf c a * 2 ^ b + bufBits buf (c + a) b := by
  induction a generalizing c with
  | zero => simp [bufBits]
  | succ a ih =>
    rw [show a + 1 + b = (a + b) + 1 by omega]
    simp only [bufBits]
    rw [ih, show c + 1 + a = c + (a + 1) by omega, Nat.pow_add]
    ring

end Sys2Proof.Machine
end

