-- ==== Sys2Proof/Laws/State.lean ====
section
/-! SUPPORT. One lemma per field per update of State, true by rfl, so that no later proof unfolds a record update. -/

namespace Sys2Proof.Machine

@[simp] theorem State.setRes_params (v : Word) (s : State) : (s.setRes v).params = s.params := rfl
@[simp] theorem State.setRes_cfgEcc (v : Word) (s : State) : (s.setRes v).cfgEcc = s.cfgEcc := rfl
@[simp] theorem State.setRes_cfgBps (v : Word) (s : State) : (s.setRes v).cfgBps = s.cfgBps := rfl
@[simp] theorem State.setRes_cfgBpc (v : Word) (s : State) : (s.setRes v).cfgBpc = s.cfgBpc := rfl
@[simp] theorem State.setRes_bfValid (v : Word) (s : State) : (s.setRes v).bfValid = s.bfValid := rfl
@[simp] theorem State.setRes_bfCap (v : Word) (s : State) : (s.setRes v).bfCap = s.bfCap := rfl
@[simp] theorem State.setRes_field (v : Word) (s : State) : (s.setRes v).field = s.field := rfl
@[simp] theorem State.setRes_bcBound (v : Word) (s : State) : (s.setRes v).bcBound = s.bcBound := rfl
@[simp] theorem State.setRes_bcLen (v : Word) (s : State) : (s.setRes v).bcLen = s.bcLen := rfl
@[simp] theorem State.setRes_bcCur (v : Word) (s : State) : (s.setRes v).bcCur = s.bcCur := rfl
@[simp] theorem State.setRes_buf (v : Word) (s : State) : (s.setRes v).buf = s.buf := rfl
@[simp] theorem State.setRes_eng (v : Word) (s : State) : (s.setRes v).eng = s.eng := rfl
@[simp] theorem State.setRes_phase (v : Word) (s : State) : (s.setRes v).phase = s.phase := rfl
@[simp] theorem State.setRes_pos (v : Word) (s : State) : (s.setRes v).pos = s.pos := rfl
@[simp] theorem State.setRes_dpos (v : Word) (s : State) : (s.setRes v).dpos = s.dpos := rfl
@[simp] theorem State.setRes_frameStatus (v : Word) (s : State) : (s.setRes v).frameStatus = s.frameStatus := rfl
@[simp] theorem State.setRes_cellCount (v : Word) (s : State) : (s.setRes v).cellCount = s.cellCount := rfl
@[simp] theorem State.setRes_res (v : Word) (s : State) : (s.setRes v).res = v := rfl
@[simp] theorem State.setRes_flag (v : Word) (s : State) : (s.setRes v).flag = s.flag := rfl
@[simp] theorem State.setRes_fault (v : Word) (s : State) : (s.setRes v).fault = s.fault := rfl
@[simp] theorem State.setRes_faultInfo (v : Word) (s : State) : (s.setRes v).faultInfo = s.faultInfo := rfl
@[simp] theorem State.setRes_resWritten (v : Word) (s : State) : (s.setRes v).resWritten = true := rfl
@[simp] theorem State.setRes_flagWritten (v : Word) (s : State) : (s.setRes v).flagWritten = s.flagWritten := rfl
@[simp] theorem State.setRes_draws (v : Word) (s : State) : (s.setRes v).draws = s.draws := rfl
@[simp] theorem State.setRes_port (v : Word) (s : State) : (s.setRes v).port = s.port := rfl
@[simp] theorem State.setRes_turns (v : Word) (s : State) : (s.setRes v).turns = s.turns := rfl
@[simp] theorem State.setRes_oracles (v : Word) (s : State) : (s.setRes v).oracles = s.oracles := rfl
@[simp] theorem State.setRes_events (v : Word) (s : State) : (s.setRes v).events = s.events := rfl

@[simp] theorem State.setFlag_params (b : Bool) (s : State) : (s.setFlag b).params = s.params := rfl
@[simp] theorem State.setFlag_cfgEcc (b : Bool) (s : State) : (s.setFlag b).cfgEcc = s.cfgEcc := rfl
@[simp] theorem State.setFlag_cfgBps (b : Bool) (s : State) : (s.setFlag b).cfgBps = s.cfgBps := rfl
@[simp] theorem State.setFlag_cfgBpc (b : Bool) (s : State) : (s.setFlag b).cfgBpc = s.cfgBpc := rfl
@[simp] theorem State.setFlag_bfValid (b : Bool) (s : State) : (s.setFlag b).bfValid = s.bfValid := rfl
@[simp] theorem State.setFlag_bfCap (b : Bool) (s : State) : (s.setFlag b).bfCap = s.bfCap := rfl
@[simp] theorem State.setFlag_field (b : Bool) (s : State) : (s.setFlag b).field = s.field := rfl
@[simp] theorem State.setFlag_bcBound (b : Bool) (s : State) : (s.setFlag b).bcBound = s.bcBound := rfl
@[simp] theorem State.setFlag_bcLen (b : Bool) (s : State) : (s.setFlag b).bcLen = s.bcLen := rfl
@[simp] theorem State.setFlag_bcCur (b : Bool) (s : State) : (s.setFlag b).bcCur = s.bcCur := rfl
@[simp] theorem State.setFlag_buf (b : Bool) (s : State) : (s.setFlag b).buf = s.buf := rfl
@[simp] theorem State.setFlag_eng (b : Bool) (s : State) : (s.setFlag b).eng = s.eng := rfl
@[simp] theorem State.setFlag_phase (b : Bool) (s : State) : (s.setFlag b).phase = s.phase := rfl
@[simp] theorem State.setFlag_pos (b : Bool) (s : State) : (s.setFlag b).pos = s.pos := rfl
@[simp] theorem State.setFlag_dpos (b : Bool) (s : State) : (s.setFlag b).dpos = s.dpos := rfl
@[simp] theorem State.setFlag_frameStatus (b : Bool) (s : State) : (s.setFlag b).frameStatus = s.frameStatus := rfl
@[simp] theorem State.setFlag_cellCount (b : Bool) (s : State) : (s.setFlag b).cellCount = s.cellCount := rfl
@[simp] theorem State.setFlag_res (b : Bool) (s : State) : (s.setFlag b).res = s.res := rfl
@[simp] theorem State.setFlag_flag (b : Bool) (s : State) : (s.setFlag b).flag = b := rfl
@[simp] theorem State.setFlag_fault (b : Bool) (s : State) : (s.setFlag b).fault = s.fault := rfl
@[simp] theorem State.setFlag_faultInfo (b : Bool) (s : State) : (s.setFlag b).faultInfo = s.faultInfo := rfl
@[simp] theorem State.setFlag_resWritten (b : Bool) (s : State) : (s.setFlag b).resWritten = s.resWritten := rfl
@[simp] theorem State.setFlag_flagWritten (b : Bool) (s : State) : (s.setFlag b).flagWritten = true := rfl
@[simp] theorem State.setFlag_draws (b : Bool) (s : State) : (s.setFlag b).draws = s.draws := rfl
@[simp] theorem State.setFlag_port (b : Bool) (s : State) : (s.setFlag b).port = s.port := rfl
@[simp] theorem State.setFlag_turns (b : Bool) (s : State) : (s.setFlag b).turns = s.turns := rfl
@[simp] theorem State.setFlag_oracles (b : Bool) (s : State) : (s.setFlag b).oracles = s.oracles := rfl
@[simp] theorem State.setFlag_events (b : Bool) (s : State) : (s.setFlag b).events = s.events := rfl

@[simp] theorem State.drawn_params (s : State) : (s.drawn).params = s.params := rfl
@[simp] theorem State.drawn_cfgEcc (s : State) : (s.drawn).cfgEcc = s.cfgEcc := rfl
@[simp] theorem State.drawn_cfgBps (s : State) : (s.drawn).cfgBps = s.cfgBps := rfl
@[simp] theorem State.drawn_cfgBpc (s : State) : (s.drawn).cfgBpc = s.cfgBpc := rfl
@[simp] theorem State.drawn_bfValid (s : State) : (s.drawn).bfValid = s.bfValid := rfl
@[simp] theorem State.drawn_bfCap (s : State) : (s.drawn).bfCap = s.bfCap := rfl
@[simp] theorem State.drawn_field (s : State) : (s.drawn).field = s.field := rfl
@[simp] theorem State.drawn_bcBound (s : State) : (s.drawn).bcBound = s.bcBound := rfl
@[simp] theorem State.drawn_bcLen (s : State) : (s.drawn).bcLen = s.bcLen := rfl
@[simp] theorem State.drawn_bcCur (s : State) : (s.drawn).bcCur = s.bcCur := rfl
@[simp] theorem State.drawn_buf (s : State) : (s.drawn).buf = s.buf := rfl
@[simp] theorem State.drawn_eng (s : State) : (s.drawn).eng = s.eng := rfl
@[simp] theorem State.drawn_phase (s : State) : (s.drawn).phase = s.phase := rfl
@[simp] theorem State.drawn_pos (s : State) : (s.drawn).pos = s.pos := rfl
@[simp] theorem State.drawn_dpos (s : State) : (s.drawn).dpos = s.dpos := rfl
@[simp] theorem State.drawn_frameStatus (s : State) : (s.drawn).frameStatus = s.frameStatus := rfl
@[simp] theorem State.drawn_cellCount (s : State) : (s.drawn).cellCount = s.cellCount := rfl
@[simp] theorem State.drawn_res (s : State) : (s.drawn).res = s.res := rfl
@[simp] theorem State.drawn_flag (s : State) : (s.drawn).flag = s.flag := rfl
@[simp] theorem State.drawn_fault (s : State) : (s.drawn).fault = s.fault := rfl
@[simp] theorem State.drawn_faultInfo (s : State) : (s.drawn).faultInfo = s.faultInfo := rfl
@[simp] theorem State.drawn_resWritten (s : State) : (s.drawn).resWritten = s.resWritten := rfl
@[simp] theorem State.drawn_flagWritten (s : State) : (s.drawn).flagWritten = s.flagWritten := rfl
@[simp] theorem State.drawn_draws (s : State) : (s.drawn).draws = s.draws + 1 := rfl
@[simp] theorem State.drawn_port (s : State) : (s.drawn).port = s.port := rfl
@[simp] theorem State.drawn_turns (s : State) : (s.drawn).turns = s.turns := rfl
@[simp] theorem State.drawn_oracles (s : State) : (s.drawn).oracles = s.oracles := rfl
@[simp] theorem State.drawn_events (s : State) : (s.drawn).events = s.events := rfl

@[simp] theorem State.createField_params (cap : Word) (s : State) : (s.createField cap).params = s.params := rfl
@[simp] theorem State.createField_cfgEcc (cap : Word) (s : State) : (s.createField cap).cfgEcc = s.cfgEcc := rfl
@[simp] theorem State.createField_cfgBps (cap : Word) (s : State) : (s.createField cap).cfgBps = s.cfgBps := rfl
@[simp] theorem State.createField_cfgBpc (cap : Word) (s : State) : (s.createField cap).cfgBpc = s.cfgBpc := rfl
@[simp] theorem State.createField_bfValid (cap : Word) (s : State) : (s.createField cap).bfValid = true := rfl
@[simp] theorem State.createField_bfCap (cap : Word) (s : State) : (s.createField cap).bfCap = cap := rfl
@[simp] theorem State.createField_field (cap : Word) (s : State) : (s.createField cap).field = [] := rfl
@[simp] theorem State.createField_bcBound (cap : Word) (s : State) : (s.createField cap).bcBound = s.bcBound := rfl
@[simp] theorem State.createField_bcLen (cap : Word) (s : State) : (s.createField cap).bcLen = s.bcLen := rfl
@[simp] theorem State.createField_bcCur (cap : Word) (s : State) : (s.createField cap).bcCur = s.bcCur := rfl
@[simp] theorem State.createField_buf (cap : Word) (s : State) : (s.createField cap).buf = s.buf := rfl
@[simp] theorem State.createField_eng (cap : Word) (s : State) : (s.createField cap).eng = s.eng := rfl
@[simp] theorem State.createField_phase (cap : Word) (s : State) : (s.createField cap).phase = s.phase := rfl
@[simp] theorem State.createField_pos (cap : Word) (s : State) : (s.createField cap).pos = s.pos := rfl
@[simp] theorem State.createField_dpos (cap : Word) (s : State) : (s.createField cap).dpos = s.dpos := rfl
@[simp] theorem State.createField_frameStatus (cap : Word) (s : State) : (s.createField cap).frameStatus = s.frameStatus := rfl
@[simp] theorem State.createField_cellCount (cap : Word) (s : State) : (s.createField cap).cellCount = s.cellCount := rfl
@[simp] theorem State.createField_res (cap : Word) (s : State) : (s.createField cap).res = s.res := rfl
@[simp] theorem State.createField_flag (cap : Word) (s : State) : (s.createField cap).flag = s.flag := rfl
@[simp] theorem State.createField_fault (cap : Word) (s : State) : (s.createField cap).fault = s.fault := rfl
@[simp] theorem State.createField_faultInfo (cap : Word) (s : State) : (s.createField cap).faultInfo = s.faultInfo := rfl
@[simp] theorem State.createField_resWritten (cap : Word) (s : State) : (s.createField cap).resWritten = s.resWritten := rfl
@[simp] theorem State.createField_flagWritten (cap : Word) (s : State) : (s.createField cap).flagWritten = s.flagWritten := rfl
@[simp] theorem State.createField_draws (cap : Word) (s : State) : (s.createField cap).draws = s.draws := rfl
@[simp] theorem State.createField_port (cap : Word) (s : State) : (s.createField cap).port = s.port := rfl
@[simp] theorem State.createField_turns (cap : Word) (s : State) : (s.createField cap).turns = s.turns := rfl
@[simp] theorem State.createField_oracles (cap : Word) (s : State) : (s.createField cap).oracles = s.oracles := rfl
@[simp] theorem State.createField_events (cap : Word) (s : State) : (s.createField cap).events = s.events := rfl

@[simp] theorem State.bindBuffer_params (bytes : List Byte) (s : State) : (s.bindBuffer bytes).params = s.params := rfl
@[simp] theorem State.bindBuffer_cfgEcc (bytes : List Byte) (s : State) : (s.bindBuffer bytes).cfgEcc = s.cfgEcc := rfl
@[simp] theorem State.bindBuffer_cfgBps (bytes : List Byte) (s : State) : (s.bindBuffer bytes).cfgBps = s.cfgBps := rfl
@[simp] theorem State.bindBuffer_cfgBpc (bytes : List Byte) (s : State) : (s.bindBuffer bytes).cfgBpc = s.cfgBpc := rfl
@[simp] theorem State.bindBuffer_bfValid (bytes : List Byte) (s : State) : (s.bindBuffer bytes).bfValid = s.bfValid := rfl
@[simp] theorem State.bindBuffer_bfCap (bytes : List Byte) (s : State) : (s.bindBuffer bytes).bfCap = s.bfCap := rfl
@[simp] theorem State.bindBuffer_field (bytes : List Byte) (s : State) : (s.bindBuffer bytes).field = s.field := rfl
@[simp] theorem State.bindBuffer_bcBound (bytes : List Byte) (s : State) : (s.bindBuffer bytes).bcBound = true := rfl
@[simp] theorem State.bindBuffer_bcLen (bytes : List Byte) (s : State) : (s.bindBuffer bytes).bcLen = BitVec.ofNat 32 bytes.length := rfl
@[simp] theorem State.bindBuffer_bcCur (bytes : List Byte) (s : State) : (s.bindBuffer bytes).bcCur = 0#32 := rfl
@[simp] theorem State.bindBuffer_buf (bytes : List Byte) (s : State) : (s.bindBuffer bytes).buf = bytes := rfl
@[simp] theorem State.bindBuffer_eng (bytes : List Byte) (s : State) : (s.bindBuffer bytes).eng = s.eng := rfl
@[simp] theorem State.bindBuffer_phase (bytes : List Byte) (s : State) : (s.bindBuffer bytes).phase = s.phase := rfl
@[simp] theorem State.bindBuffer_pos (bytes : List Byte) (s : State) : (s.bindBuffer bytes).pos = s.pos := rfl
@[simp] theorem State.bindBuffer_dpos (bytes : List Byte) (s : State) : (s.bindBuffer bytes).dpos = s.dpos := rfl
@[simp] theorem State.bindBuffer_frameStatus (bytes : List Byte) (s : State) : (s.bindBuffer bytes).frameStatus = s.frameStatus := rfl
@[simp] theorem State.bindBuffer_cellCount (bytes : List Byte) (s : State) : (s.bindBuffer bytes).cellCount = s.cellCount := rfl
@[simp] theorem State.bindBuffer_res (bytes : List Byte) (s : State) : (s.bindBuffer bytes).res = s.res := rfl
@[simp] theorem State.bindBuffer_flag (bytes : List Byte) (s : State) : (s.bindBuffer bytes).flag = s.flag := rfl
@[simp] theorem State.bindBuffer_fault (bytes : List Byte) (s : State) : (s.bindBuffer bytes).fault = s.fault := rfl
@[simp] theorem State.bindBuffer_faultInfo (bytes : List Byte) (s : State) : (s.bindBuffer bytes).faultInfo = s.faultInfo := rfl
@[simp] theorem State.bindBuffer_resWritten (bytes : List Byte) (s : State) : (s.bindBuffer bytes).resWritten = s.resWritten := rfl
@[simp] theorem State.bindBuffer_flagWritten (bytes : List Byte) (s : State) : (s.bindBuffer bytes).flagWritten = s.flagWritten := rfl
@[simp] theorem State.bindBuffer_draws (bytes : List Byte) (s : State) : (s.bindBuffer bytes).draws = s.draws := rfl
@[simp] theorem State.bindBuffer_port (bytes : List Byte) (s : State) : (s.bindBuffer bytes).port = s.port := rfl
@[simp] theorem State.bindBuffer_turns (bytes : List Byte) (s : State) : (s.bindBuffer bytes).turns = s.turns := rfl
@[simp] theorem State.bindBuffer_oracles (bytes : List Byte) (s : State) : (s.bindBuffer bytes).oracles = s.oracles := rfl
@[simp] theorem State.bindBuffer_events (bytes : List Byte) (s : State) : (s.bindBuffer bytes).events = s.events := rfl

@[simp] theorem State.fieldWrite_params (o w : Nat) (v : Word) (s : State) : (s.fieldWrite o w v).params = s.params := rfl
@[simp] theorem State.fieldWrite_cfgEcc (o w : Nat) (v : Word) (s : State) : (s.fieldWrite o w v).cfgEcc = s.cfgEcc := rfl
@[simp] theorem State.fieldWrite_cfgBps (o w : Nat) (v : Word) (s : State) : (s.fieldWrite o w v).cfgBps = s.cfgBps := rfl
@[simp] theorem State.fieldWrite_cfgBpc (o w : Nat) (v : Word) (s : State) : (s.fieldWrite o w v).cfgBpc = s.cfgBpc := rfl
@[simp] theorem State.fieldWrite_bfValid (o w : Nat) (v : Word) (s : State) : (s.fieldWrite o w v).bfValid = s.bfValid := rfl
@[simp] theorem State.fieldWrite_bfCap (o w : Nat) (v : Word) (s : State) : (s.fieldWrite o w v).bfCap = s.bfCap := rfl
@[simp] theorem State.fieldWrite_field (o w : Nat) (v : Word) (s : State) : (s.fieldWrite o w v).field = s.field.writeBits o v.toNat w := rfl
@[simp] theorem State.fieldWrite_bcBound (o w : Nat) (v : Word) (s : State) : (s.fieldWrite o w v).bcBound = s.bcBound := rfl
@[simp] theorem State.fieldWrite_bcLen (o w : Nat) (v : Word) (s : State) : (s.fieldWrite o w v).bcLen = s.bcLen := rfl
@[simp] theorem State.fieldWrite_bcCur (o w : Nat) (v : Word) (s : State) : (s.fieldWrite o w v).bcCur = s.bcCur := rfl
@[simp] theorem State.fieldWrite_buf (o w : Nat) (v : Word) (s : State) : (s.fieldWrite o w v).buf = s.buf := rfl
@[simp] theorem State.fieldWrite_eng (o w : Nat) (v : Word) (s : State) : (s.fieldWrite o w v).eng = s.eng := rfl
@[simp] theorem State.fieldWrite_phase (o w : Nat) (v : Word) (s : State) : (s.fieldWrite o w v).phase = s.phase := rfl
@[simp] theorem State.fieldWrite_pos (o w : Nat) (v : Word) (s : State) : (s.fieldWrite o w v).pos = s.pos := rfl
@[simp] theorem State.fieldWrite_dpos (o w : Nat) (v : Word) (s : State) : (s.fieldWrite o w v).dpos = s.dpos := rfl
@[simp] theorem State.fieldWrite_frameStatus (o w : Nat) (v : Word) (s : State) : (s.fieldWrite o w v).frameStatus = s.frameStatus := rfl
@[simp] theorem State.fieldWrite_cellCount (o w : Nat) (v : Word) (s : State) : (s.fieldWrite o w v).cellCount = s.cellCount := rfl
@[simp] theorem State.fieldWrite_res (o w : Nat) (v : Word) (s : State) : (s.fieldWrite o w v).res = s.res := rfl
@[simp] theorem State.fieldWrite_flag (o w : Nat) (v : Word) (s : State) : (s.fieldWrite o w v).flag = s.flag := rfl
@[simp] theorem State.fieldWrite_fault (o w : Nat) (v : Word) (s : State) : (s.fieldWrite o w v).fault = s.fault := rfl
@[simp] theorem State.fieldWrite_faultInfo (o w : Nat) (v : Word) (s : State) : (s.fieldWrite o w v).faultInfo = s.faultInfo := rfl
@[simp] theorem State.fieldWrite_resWritten (o w : Nat) (v : Word) (s : State) : (s.fieldWrite o w v).resWritten = s.resWritten := rfl
@[simp] theorem State.fieldWrite_flagWritten (o w : Nat) (v : Word) (s : State) : (s.fieldWrite o w v).flagWritten = s.flagWritten := rfl
@[simp] theorem State.fieldWrite_draws (o w : Nat) (v : Word) (s : State) : (s.fieldWrite o w v).draws = s.draws := rfl
@[simp] theorem State.fieldWrite_port (o w : Nat) (v : Word) (s : State) : (s.fieldWrite o w v).port = s.port := rfl
@[simp] theorem State.fieldWrite_turns (o w : Nat) (v : Word) (s : State) : (s.fieldWrite o w v).turns = s.turns := rfl
@[simp] theorem State.fieldWrite_oracles (o w : Nat) (v : Word) (s : State) : (s.fieldWrite o w v).oracles = s.oracles := rfl
@[simp] theorem State.fieldWrite_events (o w : Nat) (v : Word) (s : State) : (s.fieldWrite o w v).events = s.events := rfl

@[simp] theorem State.setConfig_params (e b c : Word) (s : State) : (s.setConfig e b c).params = s.params := rfl
@[simp] theorem State.setConfig_cfgEcc (e b c : Word) (s : State) : (s.setConfig e b c).cfgEcc = e := rfl
@[simp] theorem State.setConfig_cfgBps (e b c : Word) (s : State) : (s.setConfig e b c).cfgBps = b := rfl
@[simp] theorem State.setConfig_cfgBpc (e b c : Word) (s : State) : (s.setConfig e b c).cfgBpc = c := rfl
@[simp] theorem State.setConfig_bfValid (e b c : Word) (s : State) : (s.setConfig e b c).bfValid = s.bfValid := rfl
@[simp] theorem State.setConfig_bfCap (e b c : Word) (s : State) : (s.setConfig e b c).bfCap = s.bfCap := rfl
@[simp] theorem State.setConfig_field (e b c : Word) (s : State) : (s.setConfig e b c).field = s.field := rfl
@[simp] theorem State.setConfig_bcBound (e b c : Word) (s : State) : (s.setConfig e b c).bcBound = s.bcBound := rfl
@[simp] theorem State.setConfig_bcLen (e b c : Word) (s : State) : (s.setConfig e b c).bcLen = s.bcLen := rfl
@[simp] theorem State.setConfig_bcCur (e b c : Word) (s : State) : (s.setConfig e b c).bcCur = s.bcCur := rfl
@[simp] theorem State.setConfig_buf (e b c : Word) (s : State) : (s.setConfig e b c).buf = s.buf := rfl
@[simp] theorem State.setConfig_eng (e b c : Word) (s : State) : (s.setConfig e b c).eng = s.eng := rfl
@[simp] theorem State.setConfig_phase (e b c : Word) (s : State) : (s.setConfig e b c).phase = s.phase := rfl
@[simp] theorem State.setConfig_pos (e b c : Word) (s : State) : (s.setConfig e b c).pos = s.pos := rfl
@[simp] theorem State.setConfig_dpos (e b c : Word) (s : State) : (s.setConfig e b c).dpos = s.dpos := rfl
@[simp] theorem State.setConfig_frameStatus (e b c : Word) (s : State) : (s.setConfig e b c).frameStatus = s.frameStatus := rfl
@[simp] theorem State.setConfig_cellCount (e b c : Word) (s : State) : (s.setConfig e b c).cellCount = s.cellCount := rfl
@[simp] theorem State.setConfig_res (e b c : Word) (s : State) : (s.setConfig e b c).res = s.res := rfl
@[simp] theorem State.setConfig_flag (e b c : Word) (s : State) : (s.setConfig e b c).flag = s.flag := rfl
@[simp] theorem State.setConfig_fault (e b c : Word) (s : State) : (s.setConfig e b c).fault = s.fault := rfl
@[simp] theorem State.setConfig_faultInfo (e b c : Word) (s : State) : (s.setConfig e b c).faultInfo = s.faultInfo := rfl
@[simp] theorem State.setConfig_resWritten (e b c : Word) (s : State) : (s.setConfig e b c).resWritten = s.resWritten := rfl
@[simp] theorem State.setConfig_flagWritten (e b c : Word) (s : State) : (s.setConfig e b c).flagWritten = s.flagWritten := rfl
@[simp] theorem State.setConfig_draws (e b c : Word) (s : State) : (s.setConfig e b c).draws = s.draws := rfl
@[simp] theorem State.setConfig_port (e b c : Word) (s : State) : (s.setConfig e b c).port = s.port := rfl
@[simp] theorem State.setConfig_turns (e b c : Word) (s : State) : (s.setConfig e b c).turns = s.turns := rfl
@[simp] theorem State.setConfig_oracles (e b c : Word) (s : State) : (s.setConfig e b c).oracles = s.oracles := rfl
@[simp] theorem State.setConfig_events (e b c : Word) (s : State) : (s.setConfig e b c).events = s.events := rfl

@[simp] theorem State.setEng_params (e : Eng) (s : State) : (s.setEng e).params = s.params := rfl
@[simp] theorem State.setEng_cfgEcc (e : Eng) (s : State) : (s.setEng e).cfgEcc = s.cfgEcc := rfl
@[simp] theorem State.setEng_cfgBps (e : Eng) (s : State) : (s.setEng e).cfgBps = s.cfgBps := rfl
@[simp] theorem State.setEng_cfgBpc (e : Eng) (s : State) : (s.setEng e).cfgBpc = s.cfgBpc := rfl
@[simp] theorem State.setEng_bfValid (e : Eng) (s : State) : (s.setEng e).bfValid = s.bfValid := rfl
@[simp] theorem State.setEng_bfCap (e : Eng) (s : State) : (s.setEng e).bfCap = s.bfCap := rfl
@[simp] theorem State.setEng_field (e : Eng) (s : State) : (s.setEng e).field = s.field := rfl
@[simp] theorem State.setEng_bcBound (e : Eng) (s : State) : (s.setEng e).bcBound = s.bcBound := rfl
@[simp] theorem State.setEng_bcLen (e : Eng) (s : State) : (s.setEng e).bcLen = s.bcLen := rfl
@[simp] theorem State.setEng_bcCur (e : Eng) (s : State) : (s.setEng e).bcCur = s.bcCur := rfl
@[simp] theorem State.setEng_buf (e : Eng) (s : State) : (s.setEng e).buf = s.buf := rfl
@[simp] theorem State.setEng_eng (e : Eng) (s : State) : (s.setEng e).eng = e := rfl
@[simp] theorem State.setEng_phase (e : Eng) (s : State) : (s.setEng e).phase = s.phase := rfl
@[simp] theorem State.setEng_pos (e : Eng) (s : State) : (s.setEng e).pos = s.pos := rfl
@[simp] theorem State.setEng_dpos (e : Eng) (s : State) : (s.setEng e).dpos = s.dpos := rfl
@[simp] theorem State.setEng_frameStatus (e : Eng) (s : State) : (s.setEng e).frameStatus = s.frameStatus := rfl
@[simp] theorem State.setEng_cellCount (e : Eng) (s : State) : (s.setEng e).cellCount = s.cellCount := rfl
@[simp] theorem State.setEng_res (e : Eng) (s : State) : (s.setEng e).res = s.res := rfl
@[simp] theorem State.setEng_flag (e : Eng) (s : State) : (s.setEng e).flag = s.flag := rfl
@[simp] theorem State.setEng_fault (e : Eng) (s : State) : (s.setEng e).fault = s.fault := rfl
@[simp] theorem State.setEng_faultInfo (e : Eng) (s : State) : (s.setEng e).faultInfo = s.faultInfo := rfl
@[simp] theorem State.setEng_resWritten (e : Eng) (s : State) : (s.setEng e).resWritten = s.resWritten := rfl
@[simp] theorem State.setEng_flagWritten (e : Eng) (s : State) : (s.setEng e).flagWritten = s.flagWritten := rfl
@[simp] theorem State.setEng_draws (e : Eng) (s : State) : (s.setEng e).draws = s.draws := rfl
@[simp] theorem State.setEng_port (e : Eng) (s : State) : (s.setEng e).port = s.port := rfl
@[simp] theorem State.setEng_turns (e : Eng) (s : State) : (s.setEng e).turns = s.turns := rfl
@[simp] theorem State.setEng_oracles (e : Eng) (s : State) : (s.setEng e).oracles = s.oracles := rfl
@[simp] theorem State.setEng_events (e : Eng) (s : State) : (s.setEng e).events = s.events := rfl

@[simp] theorem State.popPort_params (s : State) : (s.popPort).params = s.params := rfl
@[simp] theorem State.popPort_cfgEcc (s : State) : (s.popPort).cfgEcc = s.cfgEcc := rfl
@[simp] theorem State.popPort_cfgBps (s : State) : (s.popPort).cfgBps = s.cfgBps := rfl
@[simp] theorem State.popPort_cfgBpc (s : State) : (s.popPort).cfgBpc = s.cfgBpc := rfl
@[simp] theorem State.popPort_bfValid (s : State) : (s.popPort).bfValid = s.bfValid := rfl
@[simp] theorem State.popPort_bfCap (s : State) : (s.popPort).bfCap = s.bfCap := rfl
@[simp] theorem State.popPort_field (s : State) : (s.popPort).field = s.field := rfl
@[simp] theorem State.popPort_bcBound (s : State) : (s.popPort).bcBound = s.bcBound := rfl
@[simp] theorem State.popPort_bcLen (s : State) : (s.popPort).bcLen = s.bcLen := rfl
@[simp] theorem State.popPort_bcCur (s : State) : (s.popPort).bcCur = s.bcCur := rfl
@[simp] theorem State.popPort_buf (s : State) : (s.popPort).buf = s.buf := rfl
@[simp] theorem State.popPort_eng (s : State) : (s.popPort).eng = s.eng := rfl
@[simp] theorem State.popPort_phase (s : State) : (s.popPort).phase = s.phase := rfl
@[simp] theorem State.popPort_pos (s : State) : (s.popPort).pos = s.pos := rfl
@[simp] theorem State.popPort_dpos (s : State) : (s.popPort).dpos = s.dpos := rfl
@[simp] theorem State.popPort_frameStatus (s : State) : (s.popPort).frameStatus = s.frameStatus := rfl
@[simp] theorem State.popPort_cellCount (s : State) : (s.popPort).cellCount = s.cellCount := rfl
@[simp] theorem State.popPort_res (s : State) : (s.popPort).res = s.res := rfl
@[simp] theorem State.popPort_flag (s : State) : (s.popPort).flag = s.flag := rfl
@[simp] theorem State.popPort_fault (s : State) : (s.popPort).fault = s.fault := rfl
@[simp] theorem State.popPort_faultInfo (s : State) : (s.popPort).faultInfo = s.faultInfo := rfl
@[simp] theorem State.popPort_resWritten (s : State) : (s.popPort).resWritten = s.resWritten := rfl
@[simp] theorem State.popPort_flagWritten (s : State) : (s.popPort).flagWritten = s.flagWritten := rfl
@[simp] theorem State.popPort_draws (s : State) : (s.popPort).draws = s.draws := rfl
@[simp] theorem State.popPort_port (s : State) : (s.popPort).port = s.port.tail := rfl
@[simp] theorem State.popPort_turns (s : State) : (s.popPort).turns = s.turns := rfl
@[simp] theorem State.popPort_oracles (s : State) : (s.popPort).oracles = s.oracles := rfl
@[simp] theorem State.popPort_events (s : State) : (s.popPort).events = s.events := rfl

@[simp] theorem State.startFrame_params (cap canvas : Word) (s : State) : (s.startFrame cap canvas).params = s.params := rfl
@[simp] theorem State.startFrame_cfgEcc (cap canvas : Word) (s : State) : (s.startFrame cap canvas).cfgEcc = s.cfgEcc := rfl
@[simp] theorem State.startFrame_cfgBps (cap canvas : Word) (s : State) : (s.startFrame cap canvas).cfgBps = s.cfgBps := rfl
@[simp] theorem State.startFrame_cfgBpc (cap canvas : Word) (s : State) : (s.startFrame cap canvas).cfgBpc = s.cfgBpc := rfl
@[simp] theorem State.startFrame_bfValid (cap canvas : Word) (s : State) : (s.startFrame cap canvas).bfValid = true := rfl
@[simp] theorem State.startFrame_bfCap (cap canvas : Word) (s : State) : (s.startFrame cap canvas).bfCap = cap := rfl
@[simp] theorem State.startFrame_field (cap canvas : Word) (s : State) : (s.startFrame cap canvas).field = [] := rfl
@[simp] theorem State.startFrame_bcBound (cap canvas : Word) (s : State) : (s.startFrame cap canvas).bcBound = false := rfl
@[simp] theorem State.startFrame_bcLen (cap canvas : Word) (s : State) : (s.startFrame cap canvas).bcLen = 0#32 := rfl
@[simp] theorem State.startFrame_bcCur (cap canvas : Word) (s : State) : (s.startFrame cap canvas).bcCur = 0#32 := rfl
@[simp] theorem State.startFrame_buf (cap canvas : Word) (s : State) : (s.startFrame cap canvas).buf = [] := rfl
@[simp] theorem State.startFrame_eng (cap canvas : Word) (s : State) : (s.startFrame cap canvas).eng = .pull := rfl
@[simp] theorem State.startFrame_phase (cap canvas : Word) (s : State) : (s.startFrame cap canvas).phase = .fillSymbols := rfl
@[simp] theorem State.startFrame_pos (cap canvas : Word) (s : State) : (s.startFrame cap canvas).pos = 0#32 := rfl
@[simp] theorem State.startFrame_dpos (cap canvas : Word) (s : State) : (s.startFrame cap canvas).dpos = 0#32 := rfl
@[simp] theorem State.startFrame_frameStatus (cap canvas : Word) (s : State) : (s.startFrame cap canvas).frameStatus = .busy := rfl
@[simp] theorem State.startFrame_cellCount (cap canvas : Word) (s : State) : (s.startFrame cap canvas).cellCount = 0#32 := rfl
@[simp] theorem State.startFrame_res (cap canvas : Word) (s : State) : (s.startFrame cap canvas).res = s.res := rfl
@[simp] theorem State.startFrame_flag (cap canvas : Word) (s : State) : (s.startFrame cap canvas).flag = s.flag := rfl
@[simp] theorem State.startFrame_fault (cap canvas : Word) (s : State) : (s.startFrame cap canvas).fault = s.fault := rfl
@[simp] theorem State.startFrame_faultInfo (cap canvas : Word) (s : State) : (s.startFrame cap canvas).faultInfo = s.faultInfo := rfl
@[simp] theorem State.startFrame_resWritten (cap canvas : Word) (s : State) : (s.startFrame cap canvas).resWritten = s.resWritten := rfl
@[simp] theorem State.startFrame_flagWritten (cap canvas : Word) (s : State) : (s.startFrame cap canvas).flagWritten = s.flagWritten := rfl
@[simp] theorem State.startFrame_draws (cap canvas : Word) (s : State) : (s.startFrame cap canvas).draws = s.draws := rfl
@[simp] theorem State.startFrame_port (cap canvas : Word) (s : State) : (s.startFrame cap canvas).port = s.port := rfl
@[simp] theorem State.startFrame_turns (cap canvas : Word) (s : State) : (s.startFrame cap canvas).turns = s.turns := rfl
@[simp] theorem State.startFrame_oracles (cap canvas : Word) (s : State) : (s.startFrame cap canvas).oracles = s.oracles := rfl
@[simp] theorem State.startFrame_events (cap canvas : Word) (s : State) : (s.startFrame cap canvas).events = s.events ++ [.imgOpen s.cfgBps s.cfgBpc s.params.darkMode s.params.colorMode canvas,
  .fecOpen s.cfgEcc s.params.eccBlockSize] := rfl

@[simp] theorem State.endFrame_params (s : State) : (s.endFrame).params = s.params := rfl
@[simp] theorem State.endFrame_cfgEcc (s : State) : (s.endFrame).cfgEcc = s.cfgEcc := rfl
@[simp] theorem State.endFrame_cfgBps (s : State) : (s.endFrame).cfgBps = s.cfgBps := rfl
@[simp] theorem State.endFrame_cfgBpc (s : State) : (s.endFrame).cfgBpc = s.cfgBpc := rfl
@[simp] theorem State.endFrame_bfValid (s : State) : (s.endFrame).bfValid = false := rfl
@[simp] theorem State.endFrame_bfCap (s : State) : (s.endFrame).bfCap = 0#32 := rfl
@[simp] theorem State.endFrame_field (s : State) : (s.endFrame).field = [] := rfl
@[simp] theorem State.endFrame_bcBound (s : State) : (s.endFrame).bcBound = false := rfl
@[simp] theorem State.endFrame_bcLen (s : State) : (s.endFrame).bcLen = 0#32 := rfl
@[simp] theorem State.endFrame_bcCur (s : State) : (s.endFrame).bcCur = 0#32 := rfl
@[simp] theorem State.endFrame_buf (s : State) : (s.endFrame).buf = [] := rfl
@[simp] theorem State.endFrame_eng (s : State) : (s.endFrame).eng = .idle := rfl
@[simp] theorem State.endFrame_phase (s : State) : (s.endFrame).phase = s.phase := rfl
@[simp] theorem State.endFrame_pos (s : State) : (s.endFrame).pos = s.pos := rfl
@[simp] theorem State.endFrame_dpos (s : State) : (s.endFrame).dpos = s.dpos := rfl
@[simp] theorem State.endFrame_frameStatus (s : State) : (s.endFrame).frameStatus = .frame := rfl
@[simp] theorem State.endFrame_cellCount (s : State) : (s.endFrame).cellCount = s.cellCount := rfl
@[simp] theorem State.endFrame_res (s : State) : (s.endFrame).res = s.res := rfl
@[simp] theorem State.endFrame_flag (s : State) : (s.endFrame).flag = s.flag := rfl
@[simp] theorem State.endFrame_fault (s : State) : (s.endFrame).fault = s.fault := rfl
@[simp] theorem State.endFrame_faultInfo (s : State) : (s.endFrame).faultInfo = s.faultInfo := rfl
@[simp] theorem State.endFrame_resWritten (s : State) : (s.endFrame).resWritten = s.resWritten := rfl
@[simp] theorem State.endFrame_flagWritten (s : State) : (s.endFrame).flagWritten = s.flagWritten := rfl
@[simp] theorem State.endFrame_draws (s : State) : (s.endFrame).draws = s.draws := rfl
@[simp] theorem State.endFrame_port (s : State) : (s.endFrame).port = s.port := rfl
@[simp] theorem State.endFrame_turns (s : State) : (s.endFrame).turns = s.turns := rfl
@[simp] theorem State.endFrame_oracles (s : State) : (s.endFrame).oracles = s.oracles := rfl
@[simp] theorem State.endFrame_events (s : State) : (s.endFrame).events = s.events := rfl

@[simp] theorem State.drainCell_params (s : State) : (s.drainCell).params = s.params := rfl
@[simp] theorem State.drainCell_cfgEcc (s : State) : (s.drainCell).cfgEcc = s.cfgEcc := rfl
@[simp] theorem State.drainCell_cfgBps (s : State) : (s.drainCell).cfgBps = s.cfgBps := rfl
@[simp] theorem State.drainCell_cfgBpc (s : State) : (s.drainCell).cfgBpc = s.cfgBpc := rfl
@[simp] theorem State.drainCell_bfValid (s : State) : (s.drainCell).bfValid = s.bfValid := rfl
@[simp] theorem State.drainCell_bfCap (s : State) : (s.drainCell).bfCap = s.bfCap := rfl
@[simp] theorem State.drainCell_field (s : State) : (s.drainCell).field = s.field := rfl
@[simp] theorem State.drainCell_bcBound (s : State) : (s.drainCell).bcBound = s.bcBound := rfl
@[simp] theorem State.drainCell_bcLen (s : State) : (s.drainCell).bcLen = s.bcLen := rfl
@[simp] theorem State.drainCell_bcCur (s : State) : (s.drainCell).bcCur = s.bcCur := rfl
@[simp] theorem State.drainCell_buf (s : State) : (s.drainCell).buf = s.buf := rfl
@[simp] theorem State.drainCell_eng (s : State) : (s.drainCell).eng = s.eng := rfl
@[simp] theorem State.drainCell_phase (s : State) : (s.drainCell).phase = s.phase := rfl
@[simp] theorem State.drainCell_pos (s : State) : (s.drainCell).pos = s.pos := rfl
@[simp] theorem State.drainCell_dpos (s : State) : (s.drainCell).dpos = BitVec.ofNat 32 (s.dpos.toNat + s.bpo) := rfl
@[simp] theorem State.drainCell_frameStatus (s : State) : (s.drainCell).frameStatus = s.frameStatus := rfl
@[simp] theorem State.drainCell_cellCount (s : State) : (s.drainCell).cellCount = s.cellCount + 1#32 := rfl
@[simp] theorem State.drainCell_res (s : State) : (s.drainCell).res = s.res := rfl
@[simp] theorem State.drainCell_flag (s : State) : (s.drainCell).flag = s.flag := rfl
@[simp] theorem State.drainCell_fault (s : State) : (s.drainCell).fault = s.fault := rfl
@[simp] theorem State.drainCell_faultInfo (s : State) : (s.drainCell).faultInfo = s.faultInfo := rfl
@[simp] theorem State.drainCell_resWritten (s : State) : (s.drainCell).resWritten = s.resWritten := rfl
@[simp] theorem State.drainCell_flagWritten (s : State) : (s.drainCell).flagWritten = s.flagWritten := rfl
@[simp] theorem State.drainCell_draws (s : State) : (s.drainCell).draws = s.draws := rfl
@[simp] theorem State.drainCell_port (s : State) : (s.drainCell).port = s.port := rfl
@[simp] theorem State.drainCell_turns (s : State) : (s.drainCell).turns = s.turns := rfl
@[simp] theorem State.drainCell_oracles (s : State) : (s.drainCell).oracles = s.oracles := rfl
@[simp] theorem State.drainCell_events (s : State) : (s.drainCell).events = s.events ++ [.imgWrite (s.fieldRead s.dpos.toNat s.bpo)] := rfl

@[simp] theorem State.setOracles_params (o : Oracles) (s : State) : (s.setOracles o).params = s.params := rfl
@[simp] theorem State.setOracles_cfgEcc (o : Oracles) (s : State) : (s.setOracles o).cfgEcc = s.cfgEcc := rfl
@[simp] theorem State.setOracles_cfgBps (o : Oracles) (s : State) : (s.setOracles o).cfgBps = s.cfgBps := rfl
@[simp] theorem State.setOracles_cfgBpc (o : Oracles) (s : State) : (s.setOracles o).cfgBpc = s.cfgBpc := rfl
@[simp] theorem State.setOracles_bfValid (o : Oracles) (s : State) : (s.setOracles o).bfValid = s.bfValid := rfl
@[simp] theorem State.setOracles_bfCap (o : Oracles) (s : State) : (s.setOracles o).bfCap = s.bfCap := rfl
@[simp] theorem State.setOracles_field (o : Oracles) (s : State) : (s.setOracles o).field = s.field := rfl
@[simp] theorem State.setOracles_bcBound (o : Oracles) (s : State) : (s.setOracles o).bcBound = s.bcBound := rfl
@[simp] theorem State.setOracles_bcLen (o : Oracles) (s : State) : (s.setOracles o).bcLen = s.bcLen := rfl
@[simp] theorem State.setOracles_bcCur (o : Oracles) (s : State) : (s.setOracles o).bcCur = s.bcCur := rfl
@[simp] theorem State.setOracles_buf (o : Oracles) (s : State) : (s.setOracles o).buf = s.buf := rfl
@[simp] theorem State.setOracles_eng (o : Oracles) (s : State) : (s.setOracles o).eng = s.eng := rfl
@[simp] theorem State.setOracles_phase (o : Oracles) (s : State) : (s.setOracles o).phase = s.phase := rfl
@[simp] theorem State.setOracles_pos (o : Oracles) (s : State) : (s.setOracles o).pos = s.pos := rfl
@[simp] theorem State.setOracles_dpos (o : Oracles) (s : State) : (s.setOracles o).dpos = s.dpos := rfl
@[simp] theorem State.setOracles_frameStatus (o : Oracles) (s : State) : (s.setOracles o).frameStatus = s.frameStatus := rfl
@[simp] theorem State.setOracles_cellCount (o : Oracles) (s : State) : (s.setOracles o).cellCount = s.cellCount := rfl
@[simp] theorem State.setOracles_res (o : Oracles) (s : State) : (s.setOracles o).res = s.res := rfl
@[simp] theorem State.setOracles_flag (o : Oracles) (s : State) : (s.setOracles o).flag = s.flag := rfl
@[simp] theorem State.setOracles_fault (o : Oracles) (s : State) : (s.setOracles o).fault = s.fault := rfl
@[simp] theorem State.setOracles_faultInfo (o : Oracles) (s : State) : (s.setOracles o).faultInfo = s.faultInfo := rfl
@[simp] theorem State.setOracles_resWritten (o : Oracles) (s : State) : (s.setOracles o).resWritten = s.resWritten := rfl
@[simp] theorem State.setOracles_flagWritten (o : Oracles) (s : State) : (s.setOracles o).flagWritten = s.flagWritten := rfl
@[simp] theorem State.setOracles_draws (o : Oracles) (s : State) : (s.setOracles o).draws = s.draws := rfl
@[simp] theorem State.setOracles_port (o : Oracles) (s : State) : (s.setOracles o).port = s.port := rfl
@[simp] theorem State.setOracles_turns (o : Oracles) (s : State) : (s.setOracles o).turns = s.turns := rfl
@[simp] theorem State.setOracles_oracles (o : Oracles) (s : State) : (s.setOracles o).oracles = o := rfl
@[simp] theorem State.setOracles_events (o : Oracles) (s : State) : (s.setOracles o).events = s.events := rfl

@[simp] theorem State.nextTurn_params (s : State) : (s.nextTurn).params = s.params := rfl
@[simp] theorem State.nextTurn_cfgEcc (s : State) : (s.nextTurn).cfgEcc = s.cfgEcc := rfl
@[simp] theorem State.nextTurn_cfgBps (s : State) : (s.nextTurn).cfgBps = s.cfgBps := rfl
@[simp] theorem State.nextTurn_cfgBpc (s : State) : (s.nextTurn).cfgBpc = s.cfgBpc := rfl
@[simp] theorem State.nextTurn_bfValid (s : State) : (s.nextTurn).bfValid = s.bfValid := rfl
@[simp] theorem State.nextTurn_bfCap (s : State) : (s.nextTurn).bfCap = s.bfCap := rfl
@[simp] theorem State.nextTurn_field (s : State) : (s.nextTurn).field = s.field := rfl
@[simp] theorem State.nextTurn_bcBound (s : State) : (s.nextTurn).bcBound = s.bcBound := rfl
@[simp] theorem State.nextTurn_bcLen (s : State) : (s.nextTurn).bcLen = s.bcLen := rfl
@[simp] theorem State.nextTurn_bcCur (s : State) : (s.nextTurn).bcCur = s.bcCur := rfl
@[simp] theorem State.nextTurn_buf (s : State) : (s.nextTurn).buf = s.buf := rfl
@[simp] theorem State.nextTurn_eng (s : State) : (s.nextTurn).eng = s.eng := rfl
@[simp] theorem State.nextTurn_phase (s : State) : (s.nextTurn).phase = s.phase := rfl
@[simp] theorem State.nextTurn_pos (s : State) : (s.nextTurn).pos = s.pos := rfl
@[simp] theorem State.nextTurn_dpos (s : State) : (s.nextTurn).dpos = s.dpos := rfl
@[simp] theorem State.nextTurn_frameStatus (s : State) : (s.nextTurn).frameStatus = s.frameStatus := rfl
@[simp] theorem State.nextTurn_cellCount (s : State) : (s.nextTurn).cellCount = s.cellCount := rfl
@[simp] theorem State.nextTurn_res (s : State) : (s.nextTurn).res = s.res := rfl
@[simp] theorem State.nextTurn_flag (s : State) : (s.nextTurn).flag = s.flag := rfl
@[simp] theorem State.nextTurn_fault (s : State) : (s.nextTurn).fault = s.fault := rfl
@[simp] theorem State.nextTurn_faultInfo (s : State) : (s.nextTurn).faultInfo = s.faultInfo := rfl
@[simp] theorem State.nextTurn_resWritten (s : State) : (s.nextTurn).resWritten = s.resWritten := rfl
@[simp] theorem State.nextTurn_flagWritten (s : State) : (s.nextTurn).flagWritten = s.flagWritten := rfl
@[simp] theorem State.nextTurn_draws (s : State) : (s.nextTurn).draws = s.draws := rfl
@[simp] theorem State.nextTurn_port (s : State) : (s.nextTurn).port = s.port := rfl
@[simp] theorem State.nextTurn_turns (s : State) : (s.nextTurn).turns = s.turns.tail := rfl
@[simp] theorem State.nextTurn_oracles (s : State) : (s.nextTurn).oracles = s.oracles := rfl
@[simp] theorem State.nextTurn_events (s : State) : (s.nextTurn).events = s.events := rfl

@[simp] theorem State.raiseFault_params (e : Bool) (c : BitVec 8) (r : Raise) (s : State) : (s.raiseFault e c r).params = s.params := by
  unfold State.raiseFault; split <;> rfl
@[simp] theorem State.raiseFault_cfgEcc (e : Bool) (c : BitVec 8) (r : Raise) (s : State) : (s.raiseFault e c r).cfgEcc = s.cfgEcc := by
  unfold State.raiseFault; split <;> rfl
@[simp] theorem State.raiseFault_cfgBps (e : Bool) (c : BitVec 8) (r : Raise) (s : State) : (s.raiseFault e c r).cfgBps = s.cfgBps := by
  unfold State.raiseFault; split <;> rfl
@[simp] theorem State.raiseFault_cfgBpc (e : Bool) (c : BitVec 8) (r : Raise) (s : State) : (s.raiseFault e c r).cfgBpc = s.cfgBpc := by
  unfold State.raiseFault; split <;> rfl
@[simp] theorem State.raiseFault_bfValid (e : Bool) (c : BitVec 8) (r : Raise) (s : State) : (s.raiseFault e c r).bfValid = s.bfValid := by
  unfold State.raiseFault; split <;> rfl
@[simp] theorem State.raiseFault_bfCap (e : Bool) (c : BitVec 8) (r : Raise) (s : State) : (s.raiseFault e c r).bfCap = s.bfCap := by
  unfold State.raiseFault; split <;> rfl
@[simp] theorem State.raiseFault_field (e : Bool) (c : BitVec 8) (r : Raise) (s : State) : (s.raiseFault e c r).field = s.field := by
  unfold State.raiseFault; split <;> rfl
@[simp] theorem State.raiseFault_bcBound (e : Bool) (c : BitVec 8) (r : Raise) (s : State) : (s.raiseFault e c r).bcBound = s.bcBound := by
  unfold State.raiseFault; split <;> rfl
@[simp] theorem State.raiseFault_bcLen (e : Bool) (c : BitVec 8) (r : Raise) (s : State) : (s.raiseFault e c r).bcLen = s.bcLen := by
  unfold State.raiseFault; split <;> rfl
@[simp] theorem State.raiseFault_bcCur (e : Bool) (c : BitVec 8) (r : Raise) (s : State) : (s.raiseFault e c r).bcCur = s.bcCur := by
  unfold State.raiseFault; split <;> rfl
@[simp] theorem State.raiseFault_buf (e : Bool) (c : BitVec 8) (r : Raise) (s : State) : (s.raiseFault e c r).buf = s.buf := by
  unfold State.raiseFault; split <;> rfl
@[simp] theorem State.raiseFault_eng (e : Bool) (c : BitVec 8) (r : Raise) (s : State) : (s.raiseFault e c r).eng = s.eng := by
  unfold State.raiseFault; split <;> rfl
@[simp] theorem State.raiseFault_phase (e : Bool) (c : BitVec 8) (r : Raise) (s : State) : (s.raiseFault e c r).phase = s.phase := by
  unfold State.raiseFault; split <;> rfl
@[simp] theorem State.raiseFault_pos (e : Bool) (c : BitVec 8) (r : Raise) (s : State) : (s.raiseFault e c r).pos = s.pos := by
  unfold State.raiseFault; split <;> rfl
@[simp] theorem State.raiseFault_dpos (e : Bool) (c : BitVec 8) (r : Raise) (s : State) : (s.raiseFault e c r).dpos = s.dpos := by
  unfold State.raiseFault; split <;> rfl
@[simp] theorem State.raiseFault_frameStatus (e : Bool) (c : BitVec 8) (r : Raise) (s : State) : (s.raiseFault e c r).frameStatus = s.frameStatus := by
  unfold State.raiseFault; split <;> rfl
@[simp] theorem State.raiseFault_cellCount (e : Bool) (c : BitVec 8) (r : Raise) (s : State) : (s.raiseFault e c r).cellCount = s.cellCount := by
  unfold State.raiseFault; split <;> rfl
@[simp] theorem State.raiseFault_res (e : Bool) (c : BitVec 8) (r : Raise) (s : State) : (s.raiseFault e c r).res = s.res := by
  unfold State.raiseFault; split <;> rfl
@[simp] theorem State.raiseFault_flag (e : Bool) (c : BitVec 8) (r : Raise) (s : State) : (s.raiseFault e c r).flag = s.flag := by
  unfold State.raiseFault; split <;> rfl
@[simp] theorem State.raiseFault_resWritten (e : Bool) (c : BitVec 8) (r : Raise) (s : State) : (s.raiseFault e c r).resWritten = s.resWritten := by
  unfold State.raiseFault; split <;> rfl
@[simp] theorem State.raiseFault_flagWritten (e : Bool) (c : BitVec 8) (r : Raise) (s : State) : (s.raiseFault e c r).flagWritten = s.flagWritten := by
  unfold State.raiseFault; split <;> rfl
@[simp] theorem State.raiseFault_draws (e : Bool) (c : BitVec 8) (r : Raise) (s : State) : (s.raiseFault e c r).draws = s.draws := by
  unfold State.raiseFault; split <;> rfl
@[simp] theorem State.raiseFault_port (e : Bool) (c : BitVec 8) (r : Raise) (s : State) : (s.raiseFault e c r).port = s.port := by
  unfold State.raiseFault; split <;> rfl
@[simp] theorem State.raiseFault_turns (e : Bool) (c : BitVec 8) (r : Raise) (s : State) : (s.raiseFault e c r).turns = s.turns := by
  unfold State.raiseFault; split <;> rfl
@[simp] theorem State.raiseFault_oracles (e : Bool) (c : BitVec 8) (r : Raise) (s : State) : (s.raiseFault e c r).oracles = s.oracles := by
  unfold State.raiseFault; split <;> rfl
@[simp] theorem State.raiseFault_events (e : Bool) (c : BitVec 8) (r : Raise) (s : State) : (s.raiseFault e c r).events = s.events := by
  unfold State.raiseFault; split <;> rfl

@[simp] theorem State.advance_params (s : State) : s.advance.params = s.params := by
  unfold State.advance; simp only; repeat' split
  all_goals rfl
@[simp] theorem State.advance_cfgEcc (s : State) : s.advance.cfgEcc = s.cfgEcc := by
  unfold State.advance; simp only; repeat' split
  all_goals rfl
@[simp] theorem State.advance_cfgBps (s : State) : s.advance.cfgBps = s.cfgBps := by
  unfold State.advance; simp only; repeat' split
  all_goals rfl
@[simp] theorem State.advance_cfgBpc (s : State) : s.advance.cfgBpc = s.cfgBpc := by
  unfold State.advance; simp only; repeat' split
  all_goals rfl
@[simp] theorem State.advance_bfValid (s : State) : s.advance.bfValid = s.bfValid := by
  unfold State.advance; simp only; repeat' split
  all_goals rfl
@[simp] theorem State.advance_bfCap (s : State) : s.advance.bfCap = s.bfCap := by
  unfold State.advance; simp only; repeat' split
  all_goals rfl
@[simp] theorem State.advance_field (s : State) : s.advance.field = s.field := by
  unfold State.advance; simp only; repeat' split
  all_goals rfl
@[simp] theorem State.advance_bcBound (s : State) : s.advance.bcBound = s.bcBound := by
  unfold State.advance; simp only; repeat' split
  all_goals rfl
@[simp] theorem State.advance_bcLen (s : State) : s.advance.bcLen = s.bcLen := by
  unfold State.advance; simp only; repeat' split
  all_goals rfl
@[simp] theorem State.advance_bcCur (s : State) : s.advance.bcCur = s.bcCur := by
  unfold State.advance; simp only; repeat' split
  all_goals rfl
@[simp] theorem State.advance_buf (s : State) : s.advance.buf = s.buf := by
  unfold State.advance; simp only; repeat' split
  all_goals rfl
@[simp] theorem State.advance_dpos (s : State) : s.advance.dpos = s.dpos := by
  unfold State.advance; simp only; repeat' split
  all_goals rfl
@[simp] theorem State.advance_frameStatus (s : State) : s.advance.frameStatus = s.frameStatus := by
  unfold State.advance; simp only; repeat' split
  all_goals rfl
@[simp] theorem State.advance_cellCount (s : State) : s.advance.cellCount = s.cellCount := by
  unfold State.advance; simp only; repeat' split
  all_goals rfl
@[simp] theorem State.advance_res (s : State) : s.advance.res = s.res := by
  unfold State.advance; simp only; repeat' split
  all_goals rfl
@[simp] theorem State.advance_flag (s : State) : s.advance.flag = s.flag := by
  unfold State.advance; simp only; repeat' split
  all_goals rfl
@[simp] theorem State.advance_fault (s : State) : s.advance.fault = s.fault := by
  unfold State.advance; simp only; repeat' split
  all_goals rfl
@[simp] theorem State.advance_faultInfo (s : State) : s.advance.faultInfo = s.faultInfo := by
  unfold State.advance; simp only; repeat' split
  all_goals rfl
@[simp] theorem State.advance_resWritten (s : State) : s.advance.resWritten = s.resWritten := by
  unfold State.advance; simp only; repeat' split
  all_goals rfl
@[simp] theorem State.advance_flagWritten (s : State) : s.advance.flagWritten = s.flagWritten := by
  unfold State.advance; simp only; repeat' split
  all_goals rfl
@[simp] theorem State.advance_draws (s : State) : s.advance.draws = s.draws := by
  unfold State.advance; simp only; repeat' split
  all_goals rfl
@[simp] theorem State.advance_port (s : State) : s.advance.port = s.port := by
  unfold State.advance; simp only; repeat' split
  all_goals rfl
@[simp] theorem State.advance_turns (s : State) : s.advance.turns = s.turns := by
  unfold State.advance; simp only; repeat' split
  all_goals rfl
@[simp] theorem State.advance_oracles (s : State) : s.advance.oracles = s.oracles := by
  unfold State.advance; simp only; repeat' split
  all_goals rfl
@[simp] theorem State.advance_events (s : State) : s.advance.events = s.events := by
  unfold State.advance; simp only; repeat' split
  all_goals rfl

@[simp] theorem State.cursorRead_after_params (w : Nat) (s : State) : (s.cursorRead w).after.params = s.params := by
  unfold State.cursorRead; split <;> rfl
@[simp] theorem State.cursorRead_after_cfgEcc (w : Nat) (s : State) : (s.cursorRead w).after.cfgEcc = s.cfgEcc := by
  unfold State.cursorRead; split <;> rfl
@[simp] theorem State.cursorRead_after_cfgBps (w : Nat) (s : State) : (s.cursorRead w).after.cfgBps = s.cfgBps := by
  unfold State.cursorRead; split <;> rfl
@[simp] theorem State.cursorRead_after_cfgBpc (w : Nat) (s : State) : (s.cursorRead w).after.cfgBpc = s.cfgBpc := by
  unfold State.cursorRead; split <;> rfl
@[simp] theorem State.cursorRead_after_bfValid (w : Nat) (s : State) : (s.cursorRead w).after.bfValid = s.bfValid := by
  unfold State.cursorRead; split <;> rfl
@[simp] theorem State.cursorRead_after_bfCap (w : Nat) (s : State) : (s.cursorRead w).after.bfCap = s.bfCap := by
  unfold State.cursorRead; split <;> rfl
@[simp] theorem State.cursorRead_after_field (w : Nat) (s : State) : (s.cursorRead w).after.field = s.field := by
  unfold State.cursorRead; split <;> rfl
@[simp] theorem State.cursorRead_after_bcBound (w : Nat) (s : State) : (s.cursorRead w).after.bcBound = s.bcBound := by
  unfold State.cursorRead; split <;> rfl
@[simp] theorem State.cursorRead_after_bcLen (w : Nat) (s : State) : (s.cursorRead w).after.bcLen = s.bcLen := by
  unfold State.cursorRead; split <;> rfl
@[simp] theorem State.cursorRead_after_buf (w : Nat) (s : State) : (s.cursorRead w).after.buf = s.buf := by
  unfold State.cursorRead; split <;> rfl
@[simp] theorem State.cursorRead_after_eng (w : Nat) (s : State) : (s.cursorRead w).after.eng = s.eng := by
  unfold State.cursorRead; split <;> rfl
@[simp] theorem State.cursorRead_after_phase (w : Nat) (s : State) : (s.cursorRead w).after.phase = s.phase := by
  unfold State.cursorRead; split <;> rfl
@[simp] theorem State.cursorRead_after_pos (w : Nat) (s : State) : (s.cursorRead w).after.pos = s.pos := by
  unfold State.cursorRead; split <;> rfl
@[simp] theorem State.cursorRead_after_dpos (w : Nat) (s : State) : (s.cursorRead w).after.dpos = s.dpos := by
  unfold State.cursorRead; split <;> rfl
@[simp] theorem State.cursorRead_after_frameStatus (w : Nat) (s : State) : (s.cursorRead w).after.frameStatus = s.frameStatus := by
  unfold State.cursorRead; split <;> rfl
@[simp] theorem State.cursorRead_after_cellCount (w : Nat) (s : State) : (s.cursorRead w).after.cellCount = s.cellCount := by
  unfold State.cursorRead; split <;> rfl
@[simp] theorem State.cursorRead_after_res (w : Nat) (s : State) : (s.cursorRead w).after.res = s.res := by
  unfold State.cursorRead; split <;> rfl
@[simp] theorem State.cursorRead_after_flag (w : Nat) (s : State) : (s.cursorRead w).after.flag = s.flag := by
  unfold State.cursorRead; split <;> rfl
@[simp] theorem State.cursorRead_after_fault (w : Nat) (s : State) : (s.cursorRead w).after.fault = s.fault := by
  unfold State.cursorRead; split <;> rfl
@[simp] theorem State.cursorRead_after_faultInfo (w : Nat) (s : State) : (s.cursorRead w).after.faultInfo = s.faultInfo := by
  unfold State.cursorRead; split <;> rfl
@[simp] theorem State.cursorRead_after_resWritten (w : Nat) (s : State) : (s.cursorRead w).after.resWritten = s.resWritten := by
  unfold State.cursorRead; split <;> rfl
@[simp] theorem State.cursorRead_after_flagWritten (w : Nat) (s : State) : (s.cursorRead w).after.flagWritten = s.flagWritten := by
  unfold State.cursorRead; split <;> rfl
@[simp] theorem State.cursorRead_after_port (w : Nat) (s : State) : (s.cursorRead w).after.port = s.port := by
  unfold State.cursorRead; split <;> rfl
@[simp] theorem State.cursorRead_after_turns (w : Nat) (s : State) : (s.cursorRead w).after.turns = s.turns := by
  unfold State.cursorRead; split <;> rfl
@[simp] theorem State.cursorRead_after_oracles (w : Nat) (s : State) : (s.cursorRead w).after.oracles = s.oracles := by
  unfold State.cursorRead; split <;> rfl
@[simp] theorem State.cursorRead_after_events (w : Nat) (s : State) : (s.cursorRead w).after.events = s.events := by
  unfold State.cursorRead; split <;> rfl

@[simp] theorem State.applyReset_params (s : State) : s.applyReset.params = s.params := rfl
@[simp] theorem State.applyReset_cfgEcc (s : State) : s.applyReset.cfgEcc = (State.resetWith s.params).cfgEcc := rfl
@[simp] theorem State.applyReset_cfgBps (s : State) : s.applyReset.cfgBps = (State.resetWith s.params).cfgBps := rfl
@[simp] theorem State.applyReset_cfgBpc (s : State) : s.applyReset.cfgBpc = (State.resetWith s.params).cfgBpc := rfl
@[simp] theorem State.applyReset_bfValid (s : State) : s.applyReset.bfValid = (State.resetWith s.params).bfValid := rfl
@[simp] theorem State.applyReset_bfCap (s : State) : s.applyReset.bfCap = (State.resetWith s.params).bfCap := rfl
@[simp] theorem State.applyReset_field (s : State) : s.applyReset.field = (State.resetWith s.params).field := rfl
@[simp] theorem State.applyReset_bcBound (s : State) : s.applyReset.bcBound = (State.resetWith s.params).bcBound := rfl
@[simp] theorem State.applyReset_bcLen (s : State) : s.applyReset.bcLen = (State.resetWith s.params).bcLen := rfl
@[simp] theorem State.applyReset_bcCur (s : State) : s.applyReset.bcCur = (State.resetWith s.params).bcCur := rfl
@[simp] theorem State.applyReset_buf (s : State) : s.applyReset.buf = (State.resetWith s.params).buf := rfl
@[simp] theorem State.applyReset_eng (s : State) : s.applyReset.eng = (State.resetWith s.params).eng := rfl
@[simp] theorem State.applyReset_phase (s : State) : s.applyReset.phase = (State.resetWith s.params).phase := rfl
@[simp] theorem State.applyReset_pos (s : State) : s.applyReset.pos = (State.resetWith s.params).pos := rfl
@[simp] theorem State.applyReset_dpos (s : State) : s.applyReset.dpos = (State.resetWith s.params).dpos := rfl
@[simp] theorem State.applyReset_frameStatus (s : State) : s.applyReset.frameStatus = (State.resetWith s.params).frameStatus := rfl
@[simp] theorem State.applyReset_cellCount (s : State) : s.applyReset.cellCount = (State.resetWith s.params).cellCount := rfl
@[simp] theorem State.applyReset_res (s : State) : s.applyReset.res = (State.resetWith s.params).res := rfl
@[simp] theorem State.applyReset_flag (s : State) : s.applyReset.flag = (State.resetWith s.params).flag := rfl
@[simp] theorem State.applyReset_fault (s : State) : s.applyReset.fault = (State.resetWith s.params).fault := rfl
@[simp] theorem State.applyReset_faultInfo (s : State) : s.applyReset.faultInfo = (State.resetWith s.params).faultInfo := rfl
@[simp] theorem State.applyReset_resWritten (s : State) : s.applyReset.resWritten = (State.resetWith s.params).resWritten := rfl
@[simp] theorem State.applyReset_flagWritten (s : State) : s.applyReset.flagWritten = (State.resetWith s.params).flagWritten := rfl
@[simp] theorem State.applyReset_draws (s : State) : s.applyReset.draws = s.draws := rfl
@[simp] theorem State.applyReset_port (s : State) : s.applyReset.port = s.port := rfl
@[simp] theorem State.applyReset_turns (s : State) : s.applyReset.turns = s.turns := rfl
@[simp] theorem State.applyReset_oracles (s : State) : s.applyReset.oracles = s.oracles := rfl
@[simp] theorem State.applyReset_events (s : State) : s.applyReset.events = s.events := rfl

end Sys2Proof.Machine
end

