-- ==== Sys2Proof/Laws/Ops.lean ====
section
/-! SUPPORT. What each shared operation can do, said once: the fault record, a checked command, a cursor read, the operand
checks, the parameters. -/

namespace Sys2Proof.Machine

/-- The parameters of the machine after reset are legal, whatever the unknown numbers are. -/
theorem Params.ofRaw_ok (r : Nat → Nat) : (Params.ofRaw r).Ok := by
  have h0 := Nat.mod_lt (r 0) (show 0 < 2 ^ 32 - 32 by decide)
  have h1 := Nat.mod_lt (r 1) (show 0 < 2 ^ 29 - 1 by decide)
  have h2 := Nat.mod_lt (r 2) (show 0 < 2 ^ 31 - 1 by decide)
  have h3 := Nat.mod_lt (r 3) (show 0 < 31 by decide)
  have h4 := Nat.mod_lt (r 4) (show 0 < 32 - (r 3 % 31 + 1) by omega)
  simp only [Params.Ok, Params.ofRaw, BitVec.toNat_ofNat]
  refine ⟨⟨?_, ?_⟩, ⟨?_, ?_⟩, ⟨?_, ?_⟩, ?_, ?_, ?_⟩ <;> omega

theorem Config.params_ok : Config.params.Ok := Params.ofRaw_ok _

/-- Every recorded fault word has `V = 1` (10_state.md R34). -/
@[simp] theorem faultWord_valid (e : Bool) (c : BitVec 8) (k : Cause) : (faultWord e c k).getLsbD 31 = true := by
  cases e <;> simp only [faultWord, BitVec.getLsbD_append] <;> simp

/-- The reserved bits of a fault word are 0 (10_state.md R34). -/
@[simp] theorem faultWord_reserved (e : Bool) (c : BitVec 8) (k : Cause) :
    (faultWord e c k).extractLsb' 16 14 = 0#14 := by
  refine BitVec.eq_of_getLsbD_eq fun i hi => ?_
  simp only [BitVec.getLsbD_extractLsb', faultWord, BitVec.getLsbD_append]
  rw [decide_eq_true hi]
  have h1 : ¬ 16 + i < 8 := by omega
  have h2 : ¬ 16 + i - 8 < 8 := by omega
  have h3 : 16 + i - 8 - 8 < 14 := by omega
  simp [h1, h2, h3]

/-- The cause field of a fault word (10_state.md R34). -/
@[simp] theorem faultWord_cause (e : Bool) (c : BitVec 8) (k : Cause) :
    (faultWord e c k).extractLsb' 0 8 = k.code := by
  refine BitVec.eq_of_getLsbD_eq fun i hi => ?_
  simp only [BitVec.getLsbD_extractLsb', faultWord, BitVec.getLsbD_append]
  simp [hi]

/-- The opcode field of a fault word (10_state.md R34). -/
@[simp] theorem faultWord_opcode (e : Bool) (c : BitVec 8) (k : Cause) : (faultWord e c k).extractLsb' 8 8 = c := by
  refine BitVec.eq_of_getLsbD_eq fun i hi => ?_
  simp only [BitVec.getLsbD_extractLsb', faultWord, BitVec.getLsbD_append]
  have h1 : ¬ 8 + i < 8 := by omega
  have h2 : 8 + i - 8 < 8 := by omega
  simp [h1, hi]

/-- The bit that says who raised the fault (10_state.md R34). -/
@[simp] theorem faultWord_engine (e : Bool) (c : BitVec 8) (k : Cause) : (faultWord e c k).getLsbD 30 = e := by
  cases e <;> simp only [faultWord, BitVec.getLsbD_append] <;> simp

/-- The first fault is recorded and nothing else changes (60_exceptions.md R231). -/
theorem State.raiseFault_fresh {s : State} (h : s.halted = false) (e : Bool) (c : BitVec 8) (r : Raise) :
    s.raiseFault e c r = { s with fault := faultWord e c r.cause, faultInfo := r.info } := by
  simp [State.raiseFault, h]

/-- A later fault leaves everything as it is (60_exceptions.md R231). -/
theorem State.raiseFault_halted {s : State} (h : s.halted = true) (e : Bool) (c : BitVec 8) (r : Raise) :
    s.raiseFault e c r = s := by
  simp [State.raiseFault, h]

/-- A block that has raised a fault is halted. -/
theorem State.halted_raiseFault (s : State) (e : Bool) (c : BitVec 8) (r : Raise) :
    (s.raiseFault e c r).halted = true := by
  by_cases h : s.halted = true
  · rw [State.raiseFault_halted h, h]
  · rw [State.raiseFault_fresh (by simpa using h)]
    simp [State.halted]

/-- A command with a check ends with the fault or with its effect. -/
theorem checked_cases (op : Op) (check : Option Raise) (s done : State) :
    (∃ r, check = some r ∧ checked op check s done = s.raiseFault false op.code r) ∨
    (check = none ∧ checked op check s done = done) := by
  cases check with
  | none => exact .inr ⟨rfl, rfl⟩
  | some r => exact .inl ⟨r, rfl, rfl⟩

/-- A command with a check that answers a state: either its check failed and only the fault record may differ, or it passed
and the state is the command's effect. -/
theorem checked_next_cases {op : Op} {check : Option Raise} {s done t : State}
    (h : (.next (checked op check s done) : Result) = .next t) :
    (check ≠ none ∧ ∃ f i, t = { s with fault := f, faultInfo := i }) ∨ (check = none ∧ t = done) := by
  have h := Host.Outcome.next.inj h
  rcases checked_cases op check s done with ⟨r, hr, e⟩ | ⟨hr, e⟩
  · refine .inl ⟨by simp [hr], ?_⟩
    rw [e] at h
    by_cases hh : s.halted = true
    · rw [State.raiseFault_halted hh] at h
      exact ⟨s.fault, s.faultInfo, h.symm⟩
    · rw [State.raiseFault_fresh (by simpa using hh)] at h
      exact ⟨_, _, h.symm⟩
  · exact .inr ⟨hr, by rw [← h, e]⟩

/-- `FieldRead` of at most 32 bits is the number they make (40_bitfield.md R101). -/
theorem State.fieldRead_toNat (s : State) (o : Nat) {w : Nat} (h : w ≤ 32) :
    (s.fieldRead o w).toNat = s.field.readBits o w := by
  rw [State.fieldRead, BitVec.toNat_ofNat, Nat.mod_eq_of_lt]
  exact Nat.lt_of_lt_of_le (Memory.readBits_lt _ _ _) (Nat.pow_le_pow_right (by omega) h)

theorem widthOk_iff (w : Nat) : widthOk w = true ↔ 1 ≤ w ∧ w ≤ 32 := by
  simp only [widthOk, Bool.and_eq_true, decide_eq_true_eq]
  rfl

theorem validConfig_iff (b c : Nat) : validConfig b c = true ↔ 1 ≤ b ∧ 1 ≤ c ∧ b + c ≤ 32 := by
  simp only [validConfig, Bool.and_eq_true, decide_eq_true_eq, and_assoc]

/-- `BfCheck` passes exactly inside the BitField space (40_bitfield.md R103). -/
theorem bfCheck_eq_none (o w : Nat) (s : State) :
    bfCheck o w s = none ↔ s.bfValid = true ∧ (1 ≤ w ∧ w ≤ 32) ∧ o + w ≤ s.bfCap.toNat := by
  simp only [bfCheck]
  split
  · simp_all
  · split
    · rename_i h; simp [← widthOk_iff, h]
    · split
      · simp; omega
      · rename_i h1 h2 h3
        simp only [Bool.not_eq_false] at h1 h2
        simp [h1, (widthOk_iff w).1 h2]; omega

/-- `BcCheck` passes exactly with a bound buffer and a legal width (41_bitcursor.md R137). -/
theorem bcCheck_eq_none (w : Nat) (s : State) :
    bcCheck w s = none ↔ s.bcBound = true ∧ 1 ≤ w ∧ w ≤ 32 := by
  simp only [bcCheck]
  split
  · simp_all
  · split
    · rename_i h; simp [← widthOk_iff, h]
    · rename_i h1 h2
      simp only [Bool.not_eq_false] at h1 h2
      simp [h1, (widthOk_iff w).1 h2]

theorem frameCheck_eq_none (cap : Word) (s : State) :
    frameCheck cap s = none ↔ s.bpo ≤ cap.toNat ∧ cap.toNat ≤ s.params.maxCapBits := by
  simp only [frameCheck]
  split <;> simp <;> omega

theorem chunkCheck_eq_none (n : Nat) (s : State) : chunkCheck n s = none ↔ n ≤ s.params.maxChunkBytes := by
  simp only [chunkCheck]
  split <;> simp <;> omega

theorem initCheck_eq_none (cap : Word) (s : State) :
    initCheck cap s = none ↔ 1 ≤ cap.toNat ∧ cap.toNat ≤ s.params.maxCapBits := by
  simp only [initCheck]
  split
  · simp only [reduceCtorEq, false_iff]; omega
  · simp only [true_iff]; omega

theorem configCheck_eq_none (b c : Word) :
    configCheck b c = none ↔ 1 ≤ b.toNat ∧ 1 ≤ c.toNat ∧ b.toNat + c.toNat ≤ 32 := by
  simp only [configCheck, ← validConfig_iff]
  split <;> simp_all

/-- A cursor read with too few bits left (41_bitcursor.md R132). -/
theorem State.cursorRead_partial {s : State} {w : Nat} (h : s.partialRead w = true) :
    s.cursorRead w = ⟨Config.drawWord s.draws, true,
      { s.drawn with bcCur := BitVec.ofNat 32 (8 * s.bcLen.toNat) }⟩ := by
  simp [State.cursorRead, h]

/-- A cursor read with enough bits left (41_bitcursor.md R132). -/
theorem State.cursorRead_full {s : State} {w : Nat} (h : s.partialRead w = false) :
    s.cursorRead w = ⟨BitVec.ofNat 32 (bufBits s.buf s.bcCur.toNat w), false,
      { s with bcCur := BitVec.ofNat 32 (s.bcCur.toNat + w) }⟩ := by
  simp [State.cursorRead, h]

/-- A cursor read says it was partial exactly when too few bits were left. -/
theorem State.cursorRead_isPartial (s : State) (w : Nat) : (s.cursorRead w).isPartial = s.partialRead w := by
  cases h : s.partialRead w
  · rw [State.cursorRead_full h]
  · rw [State.cursorRead_partial h]

/-- A full read's value is below `2^w`. -/
theorem State.cursorRead_value_lt {s : State} {w : Nat} (h : s.partialRead w = false) :
    (s.cursorRead w).value.toNat < 2 ^ w := by
  rw [State.cursorRead_full h]
  exact Nat.lt_of_le_of_lt (BitVec.toNat_ofNat _ _ ▸ Nat.mod_le _ _) (bufBits_lt _ _ _)

theorem State.exhausted_iff (s : State) : s.exhausted = true ↔ 8 * s.bcLen.toNat ≤ s.bcCur.toNat := by
  simp [State.exhausted]

theorem State.partialRead_iff (w : Nat) (s : State) :
    s.partialRead w = true ↔ 8 * s.bcLen.toNat - s.bcCur.toNat < w := by
  simp [State.partialRead]

end Sys2Proof.Machine
end

