-- ==== Sys2Proof/Laws/PerInstr.lean ====
section
/-! SUPPORT. Statements for all instructions, one lemma per constructor of Instr. EncodedWord: the command word an encoded
command carries has its row's opcode, no reserved bit, and a width only where the row has one (30_encoding.md R81, R84). -/

namespace Sys2Proof.Laws.EncodedWord

def Statement (i : Instr) : Prop :=
  (encode i).opc = i.op.code ∧ (encode i).rsv = 0#18 ∧ (i.op.takesWidth = false → (encode i).width = 0#6)

/-- The statement for a command word built from the row and a width the row may have. -/
theorem of_commandWord {i : Instr} (w : BitVec 6) (h : (encode i).cmd = commandWord i.op w)
    (hw : i.op.takesWidth = false → w = 0#6) : Statement i := by
  simp only [Statement, Transaction.opc, Transaction.rsv, Transaction.width, h, commandWord_opc, commandWord_rsv,
    commandWord_width]
  exact ⟨trivial, trivial, hw⟩

theorem bfInit (cap : Word) : Statement (.bfInit cap) := of_commandWord 0#6 rfl fun _ => rfl
theorem bfWrite (v o : Word) (w : BitVec 6) : Statement (.bfWrite v o w) := of_commandWord w rfl nofun
theorem bfRead (o : Word) (w : BitVec 6) : Statement (.bfRead o w) := of_commandWord w rfl nofun
theorem bcRebind (payload : List Byte) : Statement (.bcRebind payload) := of_commandWord 0#6 rfl fun _ => rfl
theorem bcRead (w : BitVec 6) : Statement (.bcRead w) := of_commandWord w rfl nofun
theorem bcExhausted : Statement .bcExhausted := of_commandWord 0#6 rfl fun _ => rfl
theorem encConfig (ecc bps bpc : Word) : Statement (.encConfig ecc bps bpc) := of_commandWord 0#6 rfl fun _ => rfl
theorem encFrame (cap canvas : Word) : Statement (.encFrame cap canvas) := of_commandWord 0#6 rfl fun _ => rfl
theorem stateRead (r : Word) : Statement (.stateRead r) := of_commandWord 0#6 rfl fun _ => rfl

end Sys2Proof.Laws.EncodedWord
end

