-- ==== Sys2Proof/Laws/Turn.lean ====
section
/-! SUPPORT. What a step can do, said once: one inversion lemma for the step, one for the host's turn, one for the engine's,
one for each micro-step. -/

namespace Sys2Proof.Machine

variable {s t : State}

/-- A step is the reset, the engine's step or the host's step. -/
theorem step_cases (h : step s = .next t) :
    (s.turn = .reset ∧ t = s.nextTurn.applyReset) ∨
    (s.turn = .engine ∧ engineStep s.nextTurn = .next t) ∨
    (s.turn = .host ∧ hostStep s.nextTurn = .next t) := by
  simp only [step, takeTurn] at h
  split at h
  · exact .inr (.inr ⟨‹_›, h⟩)
  · exact .inr (.inl ⟨‹_›, h⟩)
  · exact .inl ⟨‹_›, (Host.Outcome.next.inj h).symm⟩

/-- The step on the host's turn. -/
theorem step_host (h : s.turn = .host) : step s = hostStep s.nextTurn := by simp [step, takeTurn, h]

/-- The step on the engine's turn. -/
theorem step_engine (h : s.turn = .engine) : step s = engineStep s.nextTurn := by simp [step, takeTurn, h]

/-- The step on which reset is applied. -/
theorem step_reset (h : s.turn = .reset) : step s = .next s.nextTurn.applyReset := by simp [step, takeTurn, h]

/-- A run of `k + 1` steps is a step and a run of `k`. -/
theorem run_succ (M : Host.Core) {k : Nat} {a b : M.State} (h : M.step a = .next b) : M.run (k + 1) a = M.run k b := by
  simp only [Host.Core.run, h]

/-- The same for this machine, in the model's own names. -/
theorem core_run_succ {k : Nat} (h : step s = .next t) : Sys2Proof.core.run (k + 1) s = Sys2Proof.core.run k t :=
  run_succ Sys2Proof.core h

/-- The host's step: nothing on the port; a command passed over by the halted block; a command held while a frame runs; an
illegal command; or an executed one. -/
theorem hostStep_cases (h : hostStep s = .next t) :
    (s.port = [] ∧ t = s) ∨
    ∃ c rest, s.port = c :: rest ∧
      ((s.accepts c = false ∧ s.halted = true ∧ t = s.popPort) ∨
       (s.accepts c = false ∧ s.halted = false ∧ t = s) ∨
       (s.accepts c = true ∧ (∃ e, decode c = .rejected e ∧ e ≠ .payloadLength) ∧
         t = s.popPort.raiseFault false c.opc ⟨.illegalCmd, c.cmd⟩) ∨
       (s.accepts c = true ∧ ∃ i s', decode c = .instr i ∧ exec i s = .next s' ∧
         t = if awaitsSource i s then s' else s'.popPort)) := by
  simp only [hostStep] at h
  split at h
  · exact .inl ⟨‹_›, (Host.Outcome.next.inj h).symm⟩
  · rename_i c rest hp
    refine .inr ⟨c, rest, hp, ?_⟩
    split at h
    · rename_i ha
      simp only [runCommand] at h
      split at h
      · cases h
      · exact .inr (.inr (.inl ⟨ha, ⟨_, ‹_›, by decide⟩, (Host.Outcome.next.inj h).symm⟩))
      · exact .inr (.inr (.inl ⟨ha, ⟨_, ‹_›, by decide⟩, (Host.Outcome.next.inj h).symm⟩))
      · exact .inr (.inr (.inl ⟨ha, ⟨_, ‹_›, by decide⟩, (Host.Outcome.next.inj h).symm⟩))
      · rename_i i hd
        split at h
        · rename_i s' he
          exact .inr (.inr (.inr ⟨ha, i, s', hd, he, (Host.Outcome.next.inj h).symm⟩))
        · cases h
        · cases h
    · rename_i ha
      have ha' : s.accepts c = false := by simpa using ha
      split at h
      · exact .inl ⟨ha', ‹_›, (Host.Outcome.next.inj h).symm⟩
      · exact .inr (.inl ⟨ha', by simpa using ‹¬ s.halted = true›, (Host.Outcome.next.inj h).symm⟩)

/-- What the block accepts (30_encoding.md R80). -/
theorem accepts_iff (c : Transaction) (s : State) :
    s.accepts c = true ↔ c.opc = 0x31#8 ∨ (s.halted = false ∧ s.eng = .idle) := by
  simp only [State.accepts, Op.code, Bool.or_eq_true, beq_iff_eq, Bool.and_eq_true, Bool.not_eq_true']

/-- A transaction that decodes to a `STATE_READ` is accepted in every state. -/
theorem accepts_stateRead {c : Transaction} {r : Word} (h : decode c = .instr (.stateRead r)) (s : State) :
    s.accepts c = true := (accepts_iff c s).2 (.inl (decode_opc h))

/-- A transaction with the opcode of `STATE_READ` decodes to one, or is an illegal word. -/
theorem decode_of_stateRead_opc {c : Transaction} (h : c.opc = 0x31#8) :
    (∃ r, decode c = .instr (.stateRead r)) ∨ ∃ e, decode c = .rejected e ∧ e ≠ .payloadLength := by
  cases hd : decode c with
  | instr i =>
    have ho := decode_opc hd
    rw [h] at ho
    cases i <;> first | exact .inl ⟨_, rfl⟩ | exact absurd ho (by simp [Instr.op, Op.code])
  | rejected e =>
    refine .inr ⟨e, rfl, ?_⟩
    rintro rfl
    have := (decode_payloadLength hd).1
    rw [h] at this
    exact absurd this (by decide)

/-- The host's turn with an accepted command that decodes. -/
theorem hostStep_instr {c : Transaction} {rest : List Transaction} {i : Instr} (hp : s.port = c :: rest)
    (ha : s.accepts c = true) (hd : decode c = .instr i) (he : exec i s = .next t) :
    hostStep s = .next (if awaitsSource i s then t else t.popPort) := by
  simp only [hostStep, hp, ha, if_true, runCommand, hd, he]

/-- The host's turn with an accepted illegal command. -/
theorem hostStep_illegal {c : Transaction} {rest : List Transaction} {e : DecodeError} (hp : s.port = c :: rest)
    (ha : s.accepts c = true) (hd : decode c = .rejected e) (hne : e ≠ .payloadLength) :
    hostStep s = .next (s.popPort.raiseFault false c.opc ⟨.illegalCmd, c.cmd⟩) := by
  cases e <;> first | exact absurd rfl hne | simp only [hostStep, hp, ha, if_true, runCommand, hd]

/-- The host's turn with a command the block does not accept. -/
theorem hostStep_not_accepted {c : Transaction} {rest : List Transaction} (hp : s.port = c :: rest)
    (ha : s.accepts c = false) : hostStep s = .next (if s.halted then s.popPort else s) := by
  simp only [hostStep, hp, ha]
  cases s.halted <;> rfl

/-- Every command's execution answers a next state. -/
theorem exec_next (i : Instr) (s : State) : ∃ t, exec i s = .next t := by
  cases i <;> exact ⟨_, rfl⟩

/-- The engine's step: nothing while it is not enabled, else the arm of `ENG`. -/
theorem engineStep_cases (h : engineStep s = .next t) :
    (s.engineEnabled = false ∧ t = s) ∨
    (s.engineEnabled = true ∧
      ((s.eng = .pull ∧ enginePull s = .next t) ∨ (s.eng = .fill ∧ engineFill s = .next t) ∨
       (s.eng = .drain ∧ engineDrain s = .next t))) := by
  simp only [engineStep] at h
  split at h
  · exact .inl ⟨‹_›, (Host.Outcome.next.inj h).symm⟩
  · rename_i he
    have he' : s.engineEnabled = true := by simpa using he
    refine .inr ⟨he', ?_⟩
    split at h
    · rename_i hi; simp [State.engineEnabled, hi] at he'
    · exact .inl ⟨‹_›, h⟩
    · exact .inr (.inl ⟨‹_›, h⟩)
    · exact .inr (.inr ⟨‹_›, h⟩)

/-- The engine's step in `PULL`. -/
theorem engineStep_pull (he : s.eng = .pull) (hh : s.halted = false) : engineStep s = enginePull s := by
  simp [engineStep, State.engineEnabled, he, hh]

/-- The engine's step in `FILL`. -/
theorem engineStep_fill (he : s.eng = .fill) (hh : s.halted = false) : engineStep s = engineFill s := by
  simp [engineStep, State.engineEnabled, he, hh]

/-- The engine's step in `DRAIN`. -/
theorem engineStep_drain (he : s.eng = .drain) (hh : s.halted = false) : engineStep s = engineDrain s := by
  simp [engineStep, State.engineEnabled, he, hh]

/-- The `PULL` step (42_engine.md R181): it waits, or goes to `DRAIN`, or raises `BAD_CHUNK`, or binds a chunk. -/
theorem enginePull_cases (h : enginePull s = .next t) :
    t = s ∨
    (∃ gs ns, t = (s.setOracles { s.oracles with fecGood := gs, fecCount := ns }).setEng .drain) ∨
    (∃ (gs : List Bool) (ns : List Word) (n : Word), s.params.maxChunkBytes < n.toNat ∧
      t = (s.setOracles { s.oracles with fecGood := gs, fecCount := ns }).raiseFault true Op.encFrame.code
        ⟨.badChunk, BitVec.ofNat 32 n.toNat⟩) ∨
    (∃ (gs : List Bool) (ns : List Word) (n : Word), 1 ≤ n.toNat ∧ n.toNat ≤ s.params.maxChunkBytes ∧ n.toNat ≤ s.oracles.fecStream.length ∧
      t = ((s.setOracles ⟨s.oracles.srcGood, gs, ns, s.oracles.fecStream.drop n.toNat⟩).bindBuffer
        (s.oracles.fecStream.take n.toNat)).setEng .fill) := by
  simp only [enginePull, Host.Outcome.next.injEq] at h
  split at h
  · exact .inl h.symm
  · exact .inr (.inl ⟨_, s.oracles.fecCount, h.symm⟩)
  · split at h
    · exact .inl h.symm
    · rename_i gs _ _ n ns _
      simp only [pullChunk] at h
      split at h
      · exact .inr (.inl ⟨gs, ns, h.symm⟩)
      · rename_i hn
        simp only [chunkCheck] at h
        by_cases hm : s.params.maxChunkBytes < n.toNat
        · rw [if_pos hm] at h
          exact .inr (.inr (.inl ⟨gs, ns, n, hm, h.symm⟩))
        · rw [if_neg hm] at h
          simp only at h
          split at h
          · exact .inl h.symm
          · exact .inr (.inr (.inr ⟨gs, ns, n, by omega, by omega, by omega, h.symm⟩))

/-- The `FILL` step (42_engine.md R183): the chunk is used up, or one read, written unless partial, and the advance. -/
theorem engineFill_cases (h : engineFill s = .next t) :
    (s.exhausted = true ∧ t = s.setEng .pull) ∨
    (s.exhausted = false ∧ s.bcBound = true ∧ widthOk s.readWidth = true ∧
      ((s.partialRead s.readWidth = true ∧ t = (s.cursorRead s.readWidth).after.advance) ∨
       (s.partialRead s.readWidth = false ∧ s.fieldDefined s.pos.toNat s.writeWidth = true ∧
         t = ((s.cursorRead s.readWidth).after.fieldWrite s.pos.toNat s.writeWidth
           (s.cursorRead s.readWidth).value).advance))) := by
  simp only [engineFill] at h
  split at h
  · exact .inl ⟨‹_›, (Host.Outcome.next.inj h).symm⟩
  · rename_i he
    split at h
    · cases h
    · rename_i hb
      simp only [Bool.not_eq_false, Bool.and_eq_true] at hb
      refine .inr ⟨by simpa using he, hb.1, hb.2, ?_⟩
      rw [State.cursorRead_isPartial] at h
      split at h
      · exact .inl ⟨‹_›, (Host.Outcome.next.inj h).symm⟩
      · rename_i hp
        split at h
        · exact .inr ⟨by simpa using hp, ‹_›, (Host.Outcome.next.inj h).symm⟩
        · cases h

/-- The `DRAIN` step (42_engine.md R187): one cell, or the frame end. -/
theorem engineDrain_cases (h : engineDrain s = .next t) :
    (s.dpos.toNat < s.stripeLimit ∧ s.fieldDefined s.dpos.toNat s.bpo = true ∧ t = s.drainCell) ∨
    (s.stripeLimit ≤ s.dpos.toNat ∧ t = s.endFrame) := by
  simp only [engineDrain] at h
  split at h
  · split at h
    · exact .inl ⟨‹_›, ‹_›, (Host.Outcome.next.inj h).symm⟩
    · cases h
  · exact .inr ⟨by omega, (Host.Outcome.next.inj h).symm⟩

end Sys2Proof.Machine
end

