-- ==== Sys2Proof/Tests/Slice0.lean ====
section
/-! SUPPORT. The tests: well-formedness, words written out from 30_encoding.md, single steps with the results of
95_test_vectors.md, and for every statement with hypotheses a state and operands that meet them. -/

namespace Sys2Proof.Tests

open Sys2Proof.Machine

/-! ## States -/

/-- Small legal parameters. -/
def demoParams : Params :=
  { maxCapBits := 1000, maxChunkBytes := 4, defaultEccBytes := 7#32, defaultSymbolBits := 5#32, defaultColorBits := 3#32,
    eccBlockSize := 155#32, darkMode := 1#32, colorMode := 4#32 }

/-- After reset. -/
def idle : State := State.resetWith demoParams

/-- After the first two commands of BF1: `FIELD = 1011 0000 0000 0000`. -/
def withField : State := { idle with bfValid := true, bfCap := 16#32, field := [(0, true), (2, true), (3, true)] }

/-- After `bc.bind [A5 3C]`, the cursor at bit `c`. -/
def bound (c : Nat) : State :=
  { idle with bcBound := true, bcLen := 2#32, bcCur := BitVec.ofNat 32 c, buf := [0xA5#8, 0x3C#8] }

/-- After BFF3: halted by a bounds fault. -/
def halted : State := { withField with fault := 0x80000203#32, faultInfo := 37#32 }

/-- A frame with four symbol bits, two color bits and two stripes, before its first `PULL`. -/
def pulling : State :=
  { idle with
    cfgBps := 4#32, cfgBpc := 2#32, bfValid := true, bfCap := 12#32
    frameStatus := .busy, eng := .pull
    oracles := ⟨[], [true, false], [2#32], [0xA5#8, 0x3C#8]⟩ }

/-- The same frame with the chunk `A5 3C` bound and the cursor at bit `c`, at stripe position `p`. -/
def filling (phase : Phase) (p c : Nat) : State :=
  { pulling with
    eng := .fill, phase := phase, pos := BitVec.ofNat 32 p
    bcBound := true, bcLen := 2#32, bcCur := BitVec.ofNat 32 c, buf := [0xA5#8, 0x3C#8] }

/-- The same frame in the drain, with `k` of its two cells `FIELD = 111111 000000` sent. -/
def draining (k : Nat) : State :=
  { pulling with
    eng := .drain, pos := 0#32, dpos := BitVec.ofNat 32 (6 * k), cellCount := BitVec.ofNat 32 k
    field := [(0, true), (1, true), (2, true), (3, true), (4, true), (5, true)] }

/-- What a test looks at in the state a result gives. -/
def look {α : Type} (r : Result) (f : State → α) : Option α :=
  match r with
  | .next t => some (f t)
  | .fault _ => none
  | .refused _ => none

/-- `s` with the command `c` on the port. -/
def offered (c : Transaction) (s : State) : State := { s with port := [c], turns := [.host] }

/-! ## Well-formed commands -/

/-- The byte count of `BC_REBIND` is 32 bits (30_encoding.md R86): a payload of 2^32 bytes has no encoding. -/
theorem test_wellFormed_refuses_long_payload : ¬ (Instr.bcRebind (List.replicate (2 ^ 32) 0#8)).WellFormed := by
  simp only [Instr.WellFormed, List.length_replicate]
  decide

theorem test_wellFormed_accepts_longest_payload : (Instr.bcRebind (List.replicate (2 ^ 32 - 1) 0#8)).WellFormed := by
  simp only [Instr.WellFormed, List.length_replicate]
  decide

/-! ## Decoding: the words written out from 30_encoding.md R81 and R84: eight bits `OPC`, eighteen zeros, six bits `W` -/

theorem test_decode_bfInit :
    decode ⟨0b00000001000000000000000000000000#32, 16#32, 0#32, 0#32, []⟩ = .instr (.bfInit 16#32) := by decide

theorem test_decode_bfWrite :
    decode ⟨0b00000010000000000000000000000100#32, 11#32, 3#32, 9#32, []⟩ = .instr (.bfWrite 11#32 3#32 4#6) := by decide

/-- DEC5: width 63 is a legal word. -/
theorem test_decode_bfRead :
    decode ⟨0b00000011000000000000000000111111#32, 9#32, 2#32, 0#32, []⟩ = .instr (.bfRead 2#32 63#6) := by decide

theorem test_decode_bcRebind :
    decode ⟨0b00010001000000000000000000000000#32, 2#32, 0#32, 0#32, [0xA5#8, 0x3C#8]⟩ =
      .instr (.bcRebind [0xA5#8, 0x3C#8]) := by decide

/-- DEC8. -/
theorem test_decode_bcRead :
    decode ⟨0b00010010000000000000000000100000#32, 0#32, 0#32, 0#32, []⟩ = .instr (.bcRead 32#6) := by decide

theorem test_decode_bcExhausted :
    decode ⟨0b00010011000000000000000000000000#32, 0#32, 0#32, 0#32, []⟩ = .instr .bcExhausted := by decide

theorem test_decode_encConfig :
    decode ⟨0b00100001000000000000000000000000#32, 0xFFFFFFFF#32, 4#32, 2#32, []⟩ =
      .instr (.encConfig 0xFFFFFFFF#32 4#32 2#32) := by decide

theorem test_decode_encFrame :
    decode ⟨0b00100010000000000000000000000000#32, 48#32, 7#32, 0#32, []⟩ = .instr (.encFrame 48#32 7#32) := by decide

/-- DEC12. -/
theorem test_decode_stateRead :
    decode ⟨0b00110001000000000000000000000000#32, 17#32, 0#32, 0#32, []⟩ = .instr (.stateRead 17#32) := by decide

/-- DEC2. -/
theorem test_decode_refuses_width :
    decode ⟨0x01000001#32, 0#32, 0#32, 0#32, []⟩ = .rejected .widthNotZero := by decide

/-- DEC4, DEC11. -/
theorem test_decode_refuses_reserved :
    decode ⟨0x02000040#32, 0#32, 0#32, 0#32, []⟩ = .rejected .reservedBits ∧
    decode ⟨0x22000100#32, 0#32, 0#32, 0#32, []⟩ = .rejected .reservedBits := by decide

/-- DEC6, DEC7. -/
theorem test_decode_refuses_opcodes :
    decode ⟨0x00000000#32, 0#32, 0#32, 0#32, []⟩ = .rejected .unknownOpcode ∧
    decode ⟨0xFF000000#32, 0#32, 0#32, 0#32, []⟩ = .rejected .unknownOpcode := by decide

/-- DEC13: the opcodes next to the legal ones. -/
theorem test_decode_refuses_neighbours :
    ∀ c ∈ [0x04#8, 0x10#8, 0x14#8, 0x20#8, 0x23#8, 0x30#8, 0x32#8], Op.ofCode c = none := by decide

/-- 30_encoding.md R83: a payload that is not `OP0` bytes long. -/
theorem test_decode_refuses_payload :
    decode ⟨0x11000000#32, 3#32, 0#32, 0#32, [0xA5#8]⟩ = .rejected .payloadLength := by decide

/-- Commands given by their bits: a command word alone, and one with its first operand word above it. -/
theorem test_decodeTableWord_command : decodeTableWord 32 0x0300003F = some (.bfRead 0#32 63#6) := by decide

theorem test_decodeTableWord_operand : decodeTableWord 64 0x0000001031000000 = some (.stateRead 16#32) := by decide

theorem test_decodeTableWord_payload : decodeTableWord 64 0x0000000211000000 = some (.bcRebind [0#8, 0#8]) := by decide

theorem test_decodeTableWord_illegal : decodeTableWord 32 0x00000000 = none := by decide

/-- A command given by its bits is the next one run: `enc.cfg` with all operands 0 takes the defaults (EC2). -/
theorem test_withFetchWord_runs :
    look (step ({ idle with cfgBps := 9#32 }.withFetchWord 32 0x21000000)) (fun t => (t.cfgBps, t.port, t.fault)) =
      some (5#32, [], 0#32) := by decide

/-! ## One step of each command (95_test_vectors.md) -/

/-- BF9: a new BitField is zero. -/
theorem test_bfInit_zeroes :
    look (exec (.bfInit 16#32) withField) (fun t => (t.bfValid, t.bfCap, t.field)) = some (true, 16#32, []) := by decide

/-- BFF9. -/
theorem test_bfInit_capacity_zero :
    look (exec (.bfInit 0#32) idle) (fun t => (t.fault, t.faultInfo, t.bfValid)) =
      some (0x80000108#32, 0#32, false) := by decide

/-- BF1: `bf.wr 0x3, 4, 2` gives `FIELD = 1011 1100 0000 0000`. -/
theorem test_bfWrite_stores :
    look (exec (.bfWrite 3#32 4#32 2#6) withField) (fun t => t.field.readBits 0 16) = some 0xBC00 := by decide

/-- BF4 on this field, P1 line 6: `bf.wr 0, 2, 3` clears bits 2 to 4 only. -/
theorem test_bfWrite_clears :
    look (exec (.bfWrite 0#32 2#32 3#6) withField) (fun t => t.field) = some [(0, true)] := by decide

/-- 40_bitfield.md R106 on `FIELD = 1011 0000 0000 0000`: bits 2 to 5 are `1100`. -/
theorem test_bfRead_msb_first :
    look (exec (.bfRead 2#32 4#6) withField) (fun t => (t.res, t.flagWritten)) = some (0xC#32, false) := by decide

/-- BFF6: no wrap-around. -/
theorem test_bfRead_bounds :
    look (exec (.bfRead 0xFFFFFFFF#32 1#6) withField) (fun t => (t.fault, t.faultInfo, t.resWritten)) =
      some (0x80000303#32, 0xFFFFFFFF#32, false) := by decide

/-- BC8: a rebind discards what was bound. -/
theorem test_bcRebind_replaces :
    look (exec (.bcRebind [0xF0#8]) (bound 9)) (fun t => (t.bcBound, t.bcLen, t.bcCur, t.buf)) =
      some (true, 1#32, 0#32, [0xF0#8]) := by decide

/-- BCF6: one byte more than `MAX_CHUNK_BYTES`. -/
theorem test_bcRebind_too_long :
    look (exec (.bcRebind [1#8, 2#8, 3#8, 4#8, 5#8]) idle) (fun t => (t.fault, t.faultInfo, t.bcBound)) =
      some (0x80001109#32, 5#32, false) := by decide

/-- BC1: the third read, across the byte boundary at the second byte. -/
theorem test_bcRead_full :
    look (exec (.bcRead 6#6) (bound 8)) (fun t => (t.res, t.flag, t.bcCur)) = some (0xF#32, false, 14#32) := by decide

/-- BC1b: four bits wanted, two left. -/
theorem test_bcRead_partial :
    look (exec (.bcRead 4#6) (bound 14)) (fun t => (t.flag, t.bcCur, t.fault)) = some (true, 16#32, 0#32) := by decide

/-- BC1a. -/
theorem test_bcExhausted_bits_left :
    look (exec .bcExhausted (bound 14)) (fun t => (t.flag, t.resWritten)) = some (false, false) := by decide

/-- BCF2. -/
theorem test_bcExhausted_unbound :
    look (exec .bcExhausted idle) (fun t => (t.fault, t.flagWritten)) = some (0x80001306#32, false) := by decide

/-- EC3: negative operands fall back like 0. -/
theorem test_encConfig_falls_back :
    look (exec (.encConfig 0xFFFFFFFF#32 0xFFFFFFFF#32 3#32) idle) (fun t => (t.cfgEcc, t.cfgBps, t.cfgBpc, t.bpo)) =
      some (7#32, 5#32, 3#32, 8) := by decide

/-- ECF1. -/
theorem test_encConfig_bad :
    look (exec (.encConfig 10#32 31#32 2#32) idle) (fun t => (t.fault, t.faultInfo, t.cfgEcc)) =
      some (0x80002107#32, 33#32, 7#32) := by decide

/-- 42_engine.md R173: the frame starts with a zero field of the new capacity. -/
theorem test_encFrame_starts :
    look (exec (.encFrame 48#32 9#32) { withField with oracles := ⟨[true], [], [], []⟩ })
      (fun t => (t.bfCap, t.field.length, t.events)) =
      some (48#32, 0, [.imgOpen 5#32 3#32 1#32 4#32 9#32, .fecOpen 7#32 155#32]) := by decide

/-- EFF1 with `BPO = 8`: no whole stripe; the source is not asked. -/
theorem test_encFrame_bad_capacity :
    look (exec (.encFrame 7#32 0#32) { idle with oracles := ⟨[true], [], [], []⟩ })
      (fun t => (t.fault, t.faultInfo, t.oracles.srcGood)) = some (0x80002208#32, 7#32, [true]) := by decide

/-- SR8: in a halted block, through a whole step. -/
theorem test_stateRead_fault :
    look (step (offered ⟨0x31000000#32, 17#32, 0#32, 0#32, []⟩ halted)) (fun t => (t.res, t.fault, t.port)) =
      some (0x80000203#32, 0x80000203#32, []) := by decide

/-- SR5: a reserved number. -/
theorem test_stateRead_reserved :
    look (exec (.stateRead 19#32) { idle with res := 5#32, resWritten := true }) (fun t => (t.res, t.fault)) =
      some (0#32, 0#32) := by decide

/-! ## The step -/

/-- DEC10: an illegal word. -/
theorem test_illegal_word_faults :
    look (step (offered ⟨0x13000001#32, 0#32, 0#32, 0#32, []⟩ (bound 0))) (fun t => (t.fault, t.faultInfo, t.flagWritten)) =
      some (0x80001301#32, 0x13000001#32, false) := by decide

/-- SR9: an illegal `STATE_READ` records nothing in a halted block. -/
theorem test_illegal_stateRead_halted :
    look (step (offered ⟨0x31000001#32, 17#32, 0#32, 0#32, []⟩ halted)) (fun t => (t.fault, t.faultInfo, t.resWritten)) =
      some (0x80000203#32, 37#32, false) := by decide

/-- EFF5: a command during a frame is held. -/
theorem test_command_held :
    look (step (offered ⟨0x03000006#32, 0#32, 0#32, 0#32, []⟩ pulling)) (fun t => (t.port.length, t.eng, t.fault)) =
      some (1, .pull, 0#32) := by decide

/-- EFF4: a chunk of `MAX_CHUNK_BYTES + 1` bytes. -/
theorem test_pull_bad_chunk :
    look (engineStep { pulling with oracles := ⟨[], [true], [5#32], []⟩ }) (fun t => (t.fault, t.faultInfo, t.eng)) =
      some (0xC0002209#32, 5#32, .pull) := by decide

/-- 42_engine.md R185: the first symbol of `A5 3C` is `1010`, written six bits wide. -/
theorem test_fill_symbol :
    look (engineStep (filling .fillSymbols 0 0)) (fun t => (t.field, t.pos, t.bcCur)) =
      some ([(2, true), (4, true)], 6#32, 4#32) := by decide

/-- 42_engine.md R186: a partial read at the last stripe of the colors: nothing written, the phase is complete. -/
theorem test_fill_partial_at_limit :
    look (engineStep (filling .fillColors 6 15)) (fun t => (t.field, t.phase, t.eng, t.bcCur)) =
      some ([], .complete, .drain, 16#32) := by decide

/-- 42_engine.md R187: the first cell of `FIELD = 111111 000000`. -/
theorem test_drain_cell :
    look (engineStep (draining 0)) (fun t => (t.events, t.cellCount, t.dpos)) =
      some ([.imgWrite 0x3F#32], 1#32, 6#32) := by decide

/-- 42_engine.md R188: the frame end. -/
theorem test_drain_end :
    look (engineStep (draining 2)) (fun t => (t.eng, t.frameStatus, t.bfValid, t.bfCap, t.cellCount)) =
      some (.idle, .frame, false, 0#32, 2#32) := by decide

/-- 70_reset_and_hazards.md R261: reset during a frame. -/
theorem test_reset_in_frame :
    look (step { draining 1 with turns := [.reset] }) (fun t => (t.eng, t.frameStatus, t.cfgBps, t.bfValid)) =
      some (.idle, .noneYet, 5#32, false) := by decide

/-! ## The invariant at the test states -/

theorem test_inv_idle : idle.Inv := ⟨by decide, by decide, by decide, by decide, by decide, by decide⟩

theorem test_inv_withField : withField.Inv := ⟨by decide, by decide, by decide, by decide, by decide, by decide⟩

theorem test_inv_bound_end : (bound 16).Inv := ⟨by decide, by decide, by decide, by decide, by decide, by decide⟩

theorem test_inv_halted : halted.Inv := ⟨by decide, by decide, by decide, by decide, by decide, by decide⟩

theorem test_inv_pulling : pulling.Inv := ⟨by decide, by decide, by decide, by decide, by decide, by decide⟩

theorem test_inv_filling_symbols : (filling .fillSymbols 6 0).Inv :=
  ⟨by decide, by decide, by decide, by decide, by decide, by decide⟩

theorem test_inv_filling_colors : (filling .fillColors 6 15).Inv :=
  ⟨by decide, by decide, by decide, by decide, by decide, by decide⟩

theorem test_inv_filling_exhausted : (filling .fillSymbols 0 16).Inv :=
  ⟨by decide, by decide, by decide, by decide, by decide, by decide⟩

theorem test_inv_draining_start : (draining 0).Inv := ⟨by decide, by decide, by decide, by decide, by decide, by decide⟩

theorem test_inv_draining_end : (draining 2).Inv := ⟨by decide, by decide, by decide, by decide, by decide, by decide⟩

/-! ## Witnesses: for each statement with hypotheses, by its name, a state and operands that meet them -/

theorem test_witness_DecodeEncodeRoundTrip :
    (Instr.bfWrite 0xFFFFFFFF#32 0xFFFFFFFF#32 63#6).WellFormed ∧ (Instr.bcRebind [1#8]).WellFormed := by decide

theorem test_witness_DecodedCommandEncodesBack :
    decode ⟨0x0300003F#32, 7#32, 2#32, 9#32, [1#8]⟩ = .instr (.bfRead 2#32 63#6) := by decide

theorem test_witness_UnusedOperandsIgnored :
    decode ⟨0x0300003F#32, 7#32, 2#32, 9#32, [1#8]⟩ = .instr (.bfRead 2#32 63#6) ∧
    OperandsAgree (.bfRead 2#32 63#6) ⟨0x0300003F#32, 7#32, 2#32, 9#32, [1#8]⟩ ⟨0x0300003F#32, 0#32, 2#32, 0#32, []⟩ :=
  ⟨by decide, rfl⟩

/-- One illegal word for each of (a), (b), (c), and opcode 0x00. -/
theorem test_witness_IllegalCommandFaults :
    let s := offered ⟨0x13000001#32, 0#32, 0#32, 0#32, []⟩ (bound 0)
    (s.turn = .host ∧ s.port = [⟨0x13000001#32, 0#32, 0#32, 0#32, []⟩] ∧ s.halted = false ∧ s.eng = .idle ∧
      IllegalWord ⟨0x13000001#32, 0#32, 0#32, 0#32, []⟩) ∧
    IllegalWord ⟨0x14000000#32, 0#32, 0#32, 0#32, []⟩ ∧ IllegalWord ⟨0x02000040#32, 0#32, 0#32, 0#32, []⟩ ∧
    Transaction.opc ⟨0x00000000#32, 0#32, 0#32, 0#32, []⟩ = 0x00#8 :=
  ⟨⟨by decide, by decide, by decide, by decide, .inr (.inr (by decide))⟩, .inl (by decide), .inr (.inl (by decide)),
    by decide⟩

/-- An idle block with a `BF_READ`; a frame with a `STATE_READ`; a frame with an illegal word of the same opcode. -/
theorem test_witness_StepRunsDecodedCommand :
    (let s := offered ⟨0x03000004#32, 0#32, 2#32, 0#32, []⟩ withField;
      s.turn = .host ∧ s.halted = false ∧ s.eng = .idle ∧
        decode ⟨0x03000004#32, 0#32, 2#32, 0#32, []⟩ = .instr (.bfRead 2#32 4#6)) ∧
    (let s := offered ⟨0x31000000#32, 10#32, 0#32, 0#32, []⟩ pulling;
      s.turn = .host ∧ s.port = [⟨0x31000000#32, 10#32, 0#32, 0#32, []⟩] ∧
        Transaction.opc ⟨0x31000000#32, 10#32, 0#32, 0#32, []⟩ = 0x31#8) ∧
    (let s := offered ⟨0x31000001#32, 10#32, 0#32, 0#32, []⟩ pulling;
      s.turn = .host ∧ s.halted = false ∧ Transaction.opc ⟨0x31000001#32, 10#32, 0#32, 0#32, []⟩ = 0x31#8) ∧
    IllegalWord ⟨0x31000001#32, 10#32, 0#32, 0#32, []⟩ :=
  ⟨by decide, by decide, by decide, .inr (.inr (by decide))⟩

theorem test_witness_CommandsHeldDuringFrame :
    let s := offered ⟨0x03000006#32, 0#32, 0#32, 0#32, []⟩ pulling
    s.turn = .host ∧ s.port = [⟨0x03000006#32, 0#32, 0#32, 0#32, []⟩] ∧ s.eng ≠ .idle ∧ s.halted = false ∧
    Transaction.opc ⟨0x03000006#32, 0#32, 0#32, 0#32, []⟩ ≠ 0x31#8 ∧
    decode ⟨0x31000000#32, 10#32, 0#32, 0#32, []⟩ = .instr (.stateRead 10#32) := by decide

/-- The engine's turn, and the host's with a legal command, an illegal `STATE_READ` and a legal one. -/
theorem test_witness_HaltedBlockOnlyReadsState :
    halted.halted = true ∧ { halted with turns := [.engine] }.turn = .engine ∧
    (offered ⟨0x01000000#32, 16#32, 0#32, 0#32, []⟩ halted).turn = .host ∧
    decode ⟨0x01000000#32, 16#32, 0#32, 0#32, []⟩ = .instr (.bfInit 16#32) ∧
    decode ⟨0x31000001#32, 17#32, 0#32, 0#32, []⟩ = .rejected .widthNotZero ∧
    decode ⟨0x31000000#32, 17#32, 0#32, 0#32, []⟩ = .instr (.stateRead 17#32) := by decide

theorem test_witness_OnlyResetClearsFault :
    halted.halted = true ∧ (∃ t, step halted = .next t) ∧ halted.turn ≠ .reset ∧
    (∃ t, step { halted with turns := [.reset] } = .next t) ∧ { halted with turns := [.reset] }.turn = .reset :=
  ⟨by decide, ⟨_, rfl⟩, by decide, ⟨_, rfl⟩, by decide⟩

/-- A halted block in the middle of a frame, with a `STATE_READ` on the port. -/
theorem test_witness_HaltedStepChangesOnlyRes :
    let s := offered ⟨0x31000000#32, 17#32, 0#32, 0#32, []⟩ { pulling with fault := 0xC0002209#32, faultInfo := 5#32 }
    s.halted = true ∧ s.turn ≠ .reset ∧ ∃ t, step s = .next t :=
  ⟨by decide, by decide, ⟨_, rfl⟩⟩

theorem test_witness_ResetSetsEveryRegister :
    { halted with turns := [.reset] }.turn = .reset ∧
    (∃ t, step { halted with turns := [.reset] } = .next t ∧ t.port = []) ∧ Turn.host ≠ .reset ∧ Turn.engine ≠ .reset :=
  ⟨by decide, ⟨_, rfl, rfl⟩, by decide, by decide⟩

theorem test_witness_ResetAbandonsFrame :
    { draining 1 with turns := [.reset] }.turn = .reset ∧ { draining 1 with turns := [.reset] }.eng ≠ .idle := by decide

theorem test_witness_StepKeepsInvariant :
    (idle.Inv ∧ ∃ t, step idle = .next t) ∧ (pulling.Inv ∧ ∃ t, step pulling = .next t) ∧
    ((filling .fillSymbols 6 0).Inv ∧ ∃ t, step (filling .fillSymbols 6 0) = .next t) ∧
    ((draining 2).Inv ∧ ∃ t, step (draining 2) = .next t) :=
  ⟨⟨test_inv_idle, _, rfl⟩, ⟨test_inv_pulling, _, rfl⟩, ⟨test_inv_filling_symbols, _, rfl⟩, test_inv_draining_end, _, rfl⟩

/-- The last stripe of a phase, and the first and the last cell of the drain. -/
theorem test_witness_EngineFaultsOnlyBadChunk :
    ((filling .fillSymbols 6 0).Inv ∧ (filling .fillSymbols 6 0).eng = .fill ∧
      ∃ t, engineStep (filling .fillSymbols 6 0) = .next t) ∧
    ((draining 0).Inv ∧ (draining 0).eng = .drain ∧ (draining 0).dpos.toNat < (draining 0).stripeLimit) :=
  ⟨⟨test_inv_filling_symbols, by decide, _, rfl⟩, test_inv_draining_start, by decide, by decide⟩

/-- Under the invariant the one stop happens: a `BC_REBIND` of three bytes with one byte of payload. -/
theorem test_witness_InvariantStepStopsOnlyOnBadPayload :
    let s := offered ⟨0x11000000#32, 3#32, 0#32, 0#32, [1#8]⟩ idle
    s.Inv ∧ step s = .refused .payloadLength :=
  ⟨⟨by decide, by decide, by decide, by decide, by decide, by decide⟩, rfl⟩

theorem test_witness_BfInitCreatesZeroField :
    (1 ≤ (1#32).toNat ∧ (1#32).toNat ≤ idle.params.maxCapBits) ∧
    (1 ≤ (1000#32).toNat ∧ (1000#32).toNat ≤ idle.params.maxCapBits) ∧
    idle.halted = false ∧ idle.params.maxCapBits < (1001#32).toNat := by decide

/-- The narrowest write at the start, and one that ends at the capacity; 32 bits in a field of 40. -/
theorem test_witness_BfWriteStoresBits :
    (Memory.wf withField.field ∧ withField.bfValid = true ∧ 1 ≤ (1#6).toNat ∧ (1#6).toNat ≤ 32 ∧
      (0#32).toNat + (1#6).toNat ≤ withField.bfCap.toNat) ∧
    (12#32).toNat + (4#6).toNat ≤ withField.bfCap.toNat ∧
    (let s := { withField with bfCap := 40#32 };
      Memory.wf s.field ∧ s.bfValid = true ∧ (32#6).toNat ≤ 32 ∧ (8#32).toNat + (32#6).toNat ≤ s.bfCap.toNat) := by decide

theorem test_witness_BfReadReturnsBits :
    withField.bfValid = true ∧ 1 ≤ (4#6).toNat ∧ (4#6).toNat ≤ 32 ∧ (12#32).toNat + (4#6).toNat ≤ withField.bfCap.toNat := by
  decide

/-- No field; widths 0 and 33; one bit past the capacity. -/
theorem test_witness_BfCheckFaultsInOrder :
    (idle.halted = false ∧ idle.bfValid = false) ∧ (withField.halted = false ∧ withField.bfValid = true) ∧
    (0#6).toNat < 1 ∧ 32 < (33#6).toNat ∧
    (1 ≤ (4#6).toNat ∧ (4#6).toNat ≤ 32 ∧ withField.bfCap.toNat < (13#32).toNat + (4#6).toNat) := by decide

/-- The largest value of 16 bits, over the whole field. -/
theorem test_witness_BfWriteThenReadRoundTrip :
    Memory.wf withField.field ∧ withField.bfValid = true ∧ 1 ≤ (16#6).toNat ∧ (16#6).toNat ≤ 32 ∧
    (0#32).toNat + (16#6).toNat ≤ withField.bfCap.toNat ∧ (0xFFFF#32).toNat < 2 ^ (16#6).toNat := by decide

/-- A value wider than the write. -/
theorem test_witness_BfWriteTruncates :
    Memory.wf withField.field ∧ withField.bfValid = true ∧ 1 ≤ (8#6).toNat ∧ (8#6).toNat ≤ 32 ∧
    (3#32).toNat + (8#6).toNat ≤ withField.bfCap.toNat ∧ 2 ^ (8#6).toNat ≤ (0x1234#32).toNat := by decide

theorem test_witness_FieldReadSplits : 31 + 1 ≤ 32 := by decide

/-- A write that is made, and one whose check fails; the same for `BF_INIT`. -/
theorem test_witness_StoringCommandsFrame :
    (∃ t, exec (.bfWrite 3#32 12#32 4#6) withField = .next t) ∧ (∃ t, exec (.bfWrite 3#32 13#32 4#6) withField = .next t) ∧
    (∃ t, exec (.bfInit 1000#32) withField = .next t) ∧ (∃ t, exec (.bfInit 1001#32) withField = .next t) :=
  ⟨⟨_, rfl⟩, ⟨_, rfl⟩, ⟨_, rfl⟩, _, rfl⟩

theorem test_witness_NonStoringCommandsFrame :
    (∃ t, exec (.bfRead 0#32 16#6) withField = .next t) ∧ (∃ t, exec (.bcRebind [1#8]) idle = .next t) ∧
    (∃ t, exec (.bcRead 4#6) (bound 14) = .next t) ∧ (∃ t, exec .bcExhausted (bound 14) = .next t) ∧
    (∃ t, exec (.encConfig 0#32 31#32 1#32) idle = .next t) ∧ (∃ t, exec (.encConfig 0#32 31#32 2#32) idle = .next t) ∧
    (∃ t, exec (.stateRead 15#32) idle = .next t) :=
  ⟨⟨_, rfl⟩, ⟨_, rfl⟩, ⟨_, rfl⟩, ⟨_, rfl⟩, ⟨_, rfl⟩, ⟨_, rfl⟩, _, rfl⟩

/-- The longest chunk, and one byte more. -/
theorem test_witness_BcRebindBindsPayload :
    [1#8, 2#8, 3#8, 4#8].length ≤ idle.params.maxChunkBytes ∧ idle.halted = false ∧
    idle.params.maxChunkBytes < [1#8, 2#8, 3#8, 4#8, 5#8].length := by decide

/-- A read of exactly the bits that remain. -/
theorem test_witness_BcReadFull :
    (bound 8).bcBound = true ∧ 1 ≤ (8#6).toNat ∧ (8#6).toNat ≤ 32 ∧
    (bound 8).bcCur.toNat + (8#6).toNat ≤ 8 * (bound 8).bcLen.toNat ∧ (bound 8).bcLen.toNat < 2 ^ 29 := by decide

/-- A read of one bit more than remains, and of 32 bits. -/
theorem test_witness_BcReadPartial :
    (bound 14).bcBound = true ∧ 1 ≤ (3#6).toNat ∧ (3#6).toNat ≤ 32 ∧
    8 * (bound 14).bcLen.toNat < (bound 14).bcCur.toNat + (3#6).toNat ∧
    8 * (bound 0).bcLen.toNat < (bound 0).bcCur.toNat + (32#6).toNat := by decide

theorem test_witness_BcReadOnExhausted :
    (bound 16).bcBound = true ∧ 1 ≤ (1#6).toNat ∧ (1#6).toNat ≤ 32 ∧ (bound 16).bcCur.toNat = 8 * (bound 16).bcLen.toNat := by
  decide

theorem test_witness_BcCheckFaultsInOrder :
    (idle.halted = false ∧ idle.bcBound = false) ∧
    ((bound 0).halted = false ∧ (bound 0).bcBound = true ∧ (0#6).toNat < 1 ∧ 32 < (33#6).toNat) := by decide

theorem test_witness_BcExhaustedReports :
    (bound 16).bcBound = true ∧ (bound 15).bcBound = true ∧ idle.halted = false ∧ idle.bcBound = false := by decide

theorem test_witness_PartialReadExhausts :
    (bound 14).bcBound = true ∧ (bound 14).bcLen.toNat < 2 ^ 29 ∧
    8 * (bound 14).bcLen.toNat < (bound 14).bcCur.toNat + (3#6).toNat ∧
    ∃ t u, exec (.bcRead 3#6) (bound 14) = .next t ∧ exec (.bcRead 1#6) t = .next u :=
  ⟨by decide, by decide, by decide, _, _, rfl, rfl⟩

/-- Three and five bits, to the end of the first byte; and to the end of the buffer. -/
theorem test_witness_CursorReadConcatenates :
    (bound 8).bcBound = true ∧ 1 ≤ (3#6).toNat ∧ 1 ≤ (5#6).toNat ∧ (8#6).toNat = (3#6).toNat + (5#6).toNat ∧
    (8#6).toNat ≤ 32 ∧ (bound 8).bcCur.toNat + (8#6).toNat ≤ 8 * (bound 8).bcLen.toNat ∧ (bound 8).bcLen.toNat < 2 ^ 29 ∧
    ∃ t u v, exec (.bcRead 8#6) (bound 8) = .next t ∧ exec (.bcRead 3#6) (bound 8) = .next u ∧
      exec (.bcRead 5#6) u = .next v :=
  ⟨by decide, by decide, by decide, by decide, by decide, by decide, by decide, _, _, _, rfl, rfl, rfl⟩

/-- BC1 and its last two bits: the whole buffer. -/
theorem test_witness_FullReadsConserveBits :
    (bound 0).bcBound = true ∧ (bound 0).bcLen.toNat < 2 ^ 29 ∧
    (∀ w ∈ [3#6, 5#6, 6#6, 2#6], 1 ≤ w.toNat ∧ w.toNat ≤ 32) ∧
    (bound 0).bcCur.toNat + ([3#6, 5#6, 6#6, 2#6].map (·.toNat)).sum ≤ 8 * (bound 0).bcLen.toNat := by decide

/-- EC4 and ECF1, and a negative operand. -/
theorem test_witness_EncConfigWritesOrFaults :
    (0x80000000#32).toInt ≤ 0 ∧ ¬ (31#32).toInt ≤ 0 ∧
    (1 ≤ (31#32).toNat ∧ 1 ≤ (1#32).toNat ∧ (31#32).toNat + (1#32).toNat ≤ 32) ∧
    idle.halted = false ∧ ¬ (1 ≤ (31#32).toNat ∧ 1 ≤ (2#32).toNat ∧ (31#32).toNat + (2#32).toNat ≤ 32) := by decide

theorem test_witness_NonPositiveOperandIsDefault :
    (0xFFFFFFFF#32).toInt ≤ 0 ∧ (0x80000000#32).toInt ≤ 0 ∧ (0#32).toInt ≤ 0 := by decide

/-- One bit less than a stripe, and one more than `MAX_CAP_BITS`. -/
theorem test_witness_EncFrameBadCapacity :
    idle.halted = false ∧ (7#32).toNat < idle.cfgBps.toNat + idle.cfgBpc.toNat ∧
    idle.params.maxCapBits < (1001#32).toNat := by decide

/-- The smallest and the largest capacity; the source reports no data. -/
theorem test_witness_EndOfStreamChangesOnlyStatus :
    let s := { idle with oracles := ⟨[false], [], [], []⟩ }
    s.cfgBps.toNat + s.cfgBpc.toNat ≤ (8#32).toNat ∧ (8#32).toNat ≤ s.params.maxCapBits ∧
    (1000#32).toNat ≤ s.params.maxCapBits ∧ s.oracles.srcGood = [false] := by decide

theorem test_witness_EncFrameStartsFrame :
    let s := { withField with oracles := ⟨[true], [], [], []⟩ }
    s.cfgBps.toNat + s.cfgBpc.toNat ≤ (8#32).toNat ∧ (1000#32).toNat ≤ s.params.maxCapBits ∧
    s.oracles.srcGood = [true] := by decide

theorem test_witness_EncFrameWaitsForSource :
    let s := offered ⟨0x22000000#32, 8#32, 0#32, 0#32, []⟩ idle
    s.turn = .host ∧ s.port = [⟨0x22000000#32, 8#32, 0#32, 0#32, []⟩] ∧ s.halted = false ∧ s.eng = .idle ∧
    decode ⟨0x22000000#32, 8#32, 0#32, 0#32, []⟩ = .instr (.encFrame 8#32 0#32) ∧
    s.cfgBps.toNat + s.cfgBpc.toNat ≤ (8#32).toNat ∧ (8#32).toNat ≤ s.params.maxCapBits ∧ s.oracles.srcGood = [] := by
  decide

/-- An acceptance step that starts no frame. -/
theorem test_witness_EncFrameAcceptanceFrame :
    ∃ t, exec (.encFrame 8#32 0#32) { idle with oracles := ⟨[false], [], [], []⟩ } = .next t ∧
      t.frameStatus ≠ .busy ∧ idle.eng = .idle :=
  ⟨_, rfl, by decide, by decide⟩

/-- The first reserved number and the last. -/
theorem test_witness_StateReadTable : 19 ≤ (19#32).toNat ∧ 19 ≤ (0xFFFFFFFF#32).toNat ∧ ¬ 19 ≤ (18#32).toNat := by decide

theorem test_witness_StateReadChangesOnlyRes :
    let s := { idle with res := 5#32, resWritten := true, flagWritten := true }
    s.resWritten = true ∧ s.flagWritten = true := by decide

/-- Not good; zero bytes; one byte too many; one byte; the largest chunk. -/
theorem test_witness_PullStep :
    pulling.eng = .pull ∧ pulling.halted = false ∧ pulling.oracles.fecGood = true :: [false] ∧
    pulling.oracles.fecCount = [2#32] ∧
    { pulling with oracles := ⟨[], [false], [], []⟩ }.oracles.fecGood = false :: [] ∧
    (pulling.params.maxChunkBytes < (5#32).toNat ∧ 5#32 ≠ 0#32) ∧
    (1 ≤ (1#32).toNat ∧ (1#32).toNat ≤ pulling.params.maxChunkBytes ∧ (1#32).toNat ≤ pulling.oracles.fecStream.length) ∧
    ((4#32).toNat ≤ pulling.params.maxChunkBytes ∧ (4#32).toNat ≤ [1#8, 2#8, 3#8, 4#8].length) := by decide

/-- No answer of `FEC_GOOD`; none of `FEC_READSOME`; a byte of the chunk missing. -/
theorem test_witness_PullWaitsForAnswers :
    pulling.eng = .pull ∧ { pulling with oracles := ⟨[], [], [], []⟩ }.oracles.fecGood = [] ∧
    (let s := { pulling with oracles := ⟨[], [true], [], []⟩ };
      s.oracles.fecGood = true :: [] ∧ s.oracles.fecCount = []) ∧
    (let s := { pulling with oracles := ⟨[], [true], [3#32], [1#8, 2#8]⟩ };
      s.oracles.fecCount = 3#32 :: [] ∧ (3#32).toNat ≤ s.params.maxChunkBytes ∧
        s.oracles.fecStream.length < (3#32).toNat) := by decide

/-- A used-up chunk; a full read of the last four bits of the chunk; a partial one. -/
theorem test_witness_FillStepReads :
    ((filling .fillSymbols 0 16).Inv ∧ 8 * (filling .fillSymbols 0 16).bcLen.toNat ≤ (filling .fillSymbols 0 16).bcCur.toNat) ∧
    ((filling .fillSymbols 6 0).Inv ∧ (filling .fillSymbols 6 0).eng = .fill ∧ (filling .fillSymbols 6 0).halted = false ∧
      (filling .fillSymbols 6 0).bcCur.toNat + 4 ≤ 8 * (filling .fillSymbols 6 0).bcLen.toNat) ∧
    ((filling .fillColors 6 15).Inv ∧
      8 * (filling .fillColors 6 15).bcLen.toNat < (filling .fillColors 6 15).bcCur.toNat + 2) :=
  ⟨⟨test_inv_filling_exhausted, by decide⟩, ⟨test_inv_filling_symbols, by decide, by decide, by decide⟩,
    test_inv_filling_colors, by decide⟩

/-- A symbol, a color, a partial read. -/
theorem test_witness_FillStepWrites :
    ((filling .fillSymbols 6 0).Inv ∧ (filling .fillSymbols 6 0).exhausted = false ∧
      ∃ t, engineStep (filling .fillSymbols 6 0) = .next t) ∧
    ((filling .fillColors 0 14).Inv ∧ (filling .fillColors 0 14).exhausted = false ∧
      (filling .fillColors 0 14).bcCur.toNat + (filling .fillColors 0 14).cfgBpc.toNat ≤
        8 * (filling .fillColors 0 14).bcLen.toNat ∧
      ∃ t, engineStep (filling .fillColors 0 14) = .next t) ∧
    ((filling .fillColors 6 15).Inv ∧ (filling .fillColors 6 15).exhausted = false ∧
      8 * (filling .fillColors 6 15).bcLen.toNat <
        (filling .fillColors 6 15).bcCur.toNat + (filling .fillColors 6 15).readWidth ∧
      ∃ t, engineStep (filling .fillColors 6 15) = .next t) :=
  ⟨⟨test_inv_filling_symbols, by decide, _, rfl⟩,
    ⟨⟨by decide, by decide, by decide, by decide, by decide, by decide⟩, by decide, by decide, _, rfl⟩,
    test_inv_filling_colors, by decide, by decide, _, rfl⟩

/-- Below the limit; at the limit in the symbols; at the limit in the colors. -/
theorem test_witness_FillStepAdvances :
    ((filling .fillColors 0 14).pos.toNat + (filling .fillColors 0 14).bpo < (filling .fillColors 0 14).stripeLimit) ∧
    ((filling .fillSymbols 6 0).Inv ∧ (filling .fillSymbols 6 0).pos.toNat + (filling .fillSymbols 6 0).bpo =
      (filling .fillSymbols 6 0).stripeLimit ∧ ∃ t, engineStep (filling .fillSymbols 6 0) = .next t) ∧
    ((filling .fillColors 6 15).Inv ∧ (filling .fillColors 6 15).pos.toNat + (filling .fillColors 6 15).bpo =
      (filling .fillColors 6 15).stripeLimit ∧ ∃ t, engineStep (filling .fillColors 6 15) = .next t) :=
  ⟨by decide, ⟨test_inv_filling_symbols, by decide, _, rfl⟩, test_inv_filling_colors, by decide, _, rfl⟩

/-- The largest symbol and the largest color. -/
theorem test_witness_SymbolThenColorMakesCell :
    Memory.wf pulling.field ∧ pulling.cfgBps.toNat + pulling.cfgBpc.toNat ≤ 32 ∧
    (15#32).toNat < 2 ^ pulling.cfgBps.toNat ∧ (3#32).toNat < 2 ^ pulling.cfgBpc.toNat := by decide

/-- The first cell, the last one, the end. -/
theorem test_witness_DrainStep :
    ((draining 0).Inv ∧ (draining 0).eng = .drain ∧ (draining 0).halted = false ∧
      (draining 0).dpos.toNat < (draining 0).stripeLimit) ∧
    ((draining 1).dpos.toNat < (draining 1).stripeLimit) ∧
    ((draining 2).Inv ∧ (draining 2).dpos.toNat = (draining 2).stripeLimit) :=
  ⟨⟨test_inv_draining_start, by decide, by decide, by decide⟩, by decide, test_inv_draining_end, by decide⟩

theorem test_witness_AfterFrameAccessFaults :
    (draining 2).eng = .drain ∧ (draining 2).halted = false ∧ (draining 2).dpos.toNat = (draining 2).stripeLimit ∧
    ∃ t, engineStep (draining 2) = .next t :=
  ⟨by decide, by decide, by decide, _, rfl⟩

theorem test_witness_DrainEmitsEveryStripe :
    (draining 0).Inv ∧ (draining 0).eng = .drain ∧ (draining 0).halted = false ∧ (draining 0).turns = [] ∧
    (draining 0).dpos = 0#32 :=
  ⟨test_inv_draining_start, by decide, by decide, by decide, by decide⟩

theorem test_witness_EngineStepMakesProgress :
    pulling.Inv ∧ pulling.engineEnabled = true ∧ ∃ t, engineStep pulling = .next t ∧ t ≠ pulling :=
  ⟨test_inv_pulling, by decide, _, rfl, by decide⟩

/-- A frame at its end: the one engine step that is left does not wait, and after it the engine is idle. -/
theorem test_witness_AnsweredFrameEnds :
    (draining 2).Inv ∧ (draining 2).turns = [] ∧
    ∀ k t, Sys2Proof.core.run k (draining 2) = .next t →
      (∀ j u, j ≤ k → Sys2Proof.core.run j (draining 2) = .next u → u.engineEnabled = true) → step t ≠ .next t := by
  refine ⟨test_inv_draining_end, by decide, fun k t h he => ?_⟩
  cases k with
  | zero =>
    obtain rfl : draining 2 = t := Host.Outcome.next.inj h
    intro h2
    exact absurd (congrArg State.eng (Host.Outcome.next.inj h2)) (by decide)
  | succ k => exact absurd (he 1 (draining 2).endFrame (by omega) rfl) (by decide)

/-- A `BC_READ` changes both `RES` and `FLAG`. -/
theorem test_witness_ResultWrittenOnlyByItsCommands :
    ∃ t, step (offered ⟨0x12000003#32, 0#32, 0#32, 0#32, []⟩ (bound 0)) = .next t ∧
      ¬ SameRes (offered ⟨0x12000003#32, 0#32, 0#32, 0#32, []⟩ (bound 0)) t ∧
      ¬ SameFlag (offered ⟨0x12000003#32, 0#32, 0#32, 0#32, []⟩ (bound 0)) t :=
  ⟨_, rfl, fun h => absurd h.1 (by decide), fun h => absurd h.2 (by decide)⟩

theorem test_witness_ConfigWrittenOnlyByEncConfig :
    ∃ t, step (offered ⟨0x21000000#32, 0#32, 4#32, 2#32, []⟩ idle) = .next t ∧
      ¬ SameConfig (offered ⟨0x21000000#32, 0#32, 4#32, 2#32, []⟩ idle) t :=
  ⟨_, rfl, fun h => absurd h.2.2.1 (by decide)⟩

/-- The two bytes of the chunk leave the stream. -/
theorem test_witness_StreamConsumedInOrder :
    ∃ t, step pulling = .next t ∧ pulling.oracles.fecStream = [0xA5#8, 0x3C#8] ++ t.oracles.fecStream :=
  ⟨_, rfl, by decide⟩

theorem test_witness_CellsWrittenOnlyByDrain :
    ∃ t, step (draining 0) = .next t ∧ t.events = (draining 0).events ++ [.imgWrite 0x3F#32] :=
  ⟨_, rfl, by decide⟩

theorem test_witness_CommandFaultsArePrecise :
    idle.halted = false ∧ ∃ t, exec (.bfInit 0#32) idle = .next t ∧ t.halted = true :=
  ⟨by decide, _, rfl, by decide⟩

end Sys2Proof.Tests
end

section
/-! The execution of a command as a check and an effect: one shape for all nine rows of 30_encoding.md R84. -/

namespace Sys2Proof.Machine

variable {s t : State}

/-- The check a command makes on its operands before its first write (60_exceptions.md R231). -/
def commandCheck (i : Instr) (s : State) : Option Raise :=
  match i with
  | .bfInit cap => initCheck cap s
  | .bfWrite _ o w => bfCheck o.toNat w.toNat s
  | .bfRead o w => bfCheck o.toNat w.toNat s
  | .bcRebind payload => chunkCheck payload.length s
  | .bcRead w => bcCheck w.toNat s
  | .bcExhausted => boundCheck s
  | .encConfig _ bps bpc =>
    configCheck (orDefault bps s.params.defaultSymbolBits) (orDefault bpc s.params.defaultColorBits)
  | .encFrame cap _ => frameCheck cap s
  | .stateRead _ => none

/-- What a command does once its check has passed. -/
def commandEffect (i : Instr) (s : State) : State :=
  match i with
  | .bfInit cap => s.createField cap
  | .bfWrite v o w => s.fieldWrite o.toNat w.toNat v
  | .bfRead o w => s.setRes (s.fieldRead o.toNat w.toNat)
  | .bcRebind payload => s.bindBuffer payload
  | .bcRead w =>
    ((s.cursorRead w.toNat).after.setRes (s.cursorRead w.toNat).value).setFlag (s.cursorRead w.toNat).isPartial
  | .bcExhausted => s.setFlag s.exhausted
  | .encConfig ecc bps bpc =>
    s.setConfig (orDefault ecc s.params.defaultEccBytes) (orDefault bps s.params.defaultSymbolBits)
      (orDefault bpc s.params.defaultColorBits)
  | .encFrame cap canvas => sourceAnswered cap canvas s
  | .stateRead r => (if s.readDraws r.toNat then s.drawn else s).setRes (s.readReg r.toNat)

/-- Every command is its check and its effect. -/
theorem exec_eq_checked (i : Instr) (s : State) :
    exec i s = .next (checked i.op (commandCheck i s) s (commandEffect i s)) := by
  cases i <;> rfl

/-- An executed command changes at most the fault record, or its check passed and it has its effect. -/
theorem exec_cases {i : Instr} (h : exec i s = .next t) :
    (commandCheck i s ≠ none ∧ ∃ f n, t = { s with fault := f, faultInfo := n }) ∨
    (commandCheck i s = none ∧ t = commandEffect i s) :=
  checked_next_cases ((exec_eq_checked i s).symm.trans h)

/-- `ENC_FRAME` after its check: it waits for the source, or the stream has ended, or the frame starts
(42_engine.md R170, R172, R194). -/
theorem sourceAnswered_cases (cap canvas : Word) (s : State) :
    sourceAnswered cap canvas s = s ∨
    ∃ o, sourceAnswered cap canvas s = { s.setOracles o with frameStatus := .endOfStream } ∨
      sourceAnswered cap canvas s = (s.setOracles o).startFrame cap canvas := by
  unfold sourceAnswered
  split
  · exact .inl rfl
  · exact .inr ⟨_, .inl rfl⟩
  · exact .inr ⟨_, .inr rfl⟩

/-- A command taken from the port is a `STATE_READ`, or the engine is idle (30_encoding.md R80). -/
theorem stateRead_or_idle_of_accepts {c : Transaction} {i : Instr} (ha : s.accepts c = true)
    (hd : decode c = .instr i) : (∃ r, i = .stateRead r) ∨ s.eng = .idle := by
  rcases (accepts_iff c s).1 ha with hopc | ⟨-, hidle⟩
  · rcases decode_of_stateRead_opc hopc with ⟨r, hr⟩ | ⟨e, he, -⟩
    · exact .inl ⟨r, Decoded.instr.inj (hd.symm.trans hr)⟩
    · rw [hd] at he; cases he
  · exact .inr hidle

end Sys2Proof.Machine
end

section
/-! The registers only commands and reset write: the configuration (10_state.md R22), `RES` and `FLAG` (R24). -/

namespace Sys2Proof.Machine

variable {s t : State}

/-- The registers only commands and reset write, as one value; the parameters, which nothing writes, are with them. -/
def State.commandRegs (s : State) : Params × (Word × Word × Word) × (Word × Bool) × Bool × Bool :=
  (s.params, (s.cfgEcc, s.cfgBps, s.cfgBpc), (s.res, s.resWritten), s.flag, s.flagWritten)

/-- `commandRegs` is unchanged exactly when the configuration, `RES` and `FLAG` are. -/
theorem commandRegs_eq_iff (s t : State) :
    t.commandRegs = s.commandRegs ↔ SameConfig s t ∧ SameRes s t ∧ SameFlag s t := by
  simp only [State.commandRegs, Prod.mk.injEq, SameConfig, SameRes, SameFlag, and_assoc]

@[simp] theorem State.raiseFault_commandRegs (e : Bool) (c : BitVec 8) (r : Raise) (s : State) :
    (s.raiseFault e c r).commandRegs = s.commandRegs := by
  simp [State.commandRegs]

@[simp] theorem State.advance_commandRegs (s : State) : s.advance.commandRegs = s.commandRegs := by
  simp [State.commandRegs]

@[simp] theorem State.fieldWrite_commandRegs (o w : Nat) (v : Word) (s : State) :
    (s.fieldWrite o w v).commandRegs = s.commandRegs := rfl

@[simp] theorem State.cursorRead_after_commandRegs (w : Nat) (s : State) :
    (s.cursorRead w).after.commandRegs = s.commandRegs := by
  simp [State.commandRegs]

/-- `ENC_FRAME` writes none of them. -/
@[simp] theorem sourceAnswered_commandRegs (cap canvas : Word) (s : State) :
    (sourceAnswered cap canvas s).commandRegs = s.commandRegs := by
  rcases sourceAnswered_cases cap canvas s with e | ⟨o, e | e⟩ <;> rw [e] <;> rfl

theorem sourceAnswered_same (cap canvas : Word) (s : State) :
    SameConfig s (sourceAnswered cap canvas s) ∧ SameRes s (sourceAnswered cap canvas s) ∧
      SameFlag s (sourceAnswered cap canvas s) :=
  (commandRegs_eq_iff _ _).1 (sourceAnswered_commandRegs cap canvas s)

/-- No engine step writes them. -/
theorem engineStep_commandRegs (h : engineStep s = .next t) : t.commandRegs = s.commandRegs := by
  rcases engineStep_cases h with ⟨-, rfl⟩ | ⟨-, ⟨-, h⟩ | ⟨-, h⟩ | ⟨-, h⟩⟩
  · rfl
  · rcases enginePull_cases h with rfl | ⟨gs, ns, rfl⟩ | ⟨gs, ns, n, -, rfl⟩ | ⟨gs, ns, n, -, -, -, rfl⟩
    · rfl
    · rfl
    · exact State.raiseFault_commandRegs _ _ _ _
    · rfl
  · rcases engineFill_cases h with ⟨-, rfl⟩ | ⟨-, -, -, ⟨-, rfl⟩ | ⟨-, -, rfl⟩⟩
    · rfl
    · simp
    · simp
  · rcases engineDrain_cases h with ⟨-, -, rfl⟩ | ⟨-, rfl⟩ <;> rfl

/-- The host's turn leaves them, or they are as the effect of the command at the head of the port leaves them. -/
theorem hostStep_commandRegs (h : hostStep s = .next t) :
    t.commandRegs = s.commandRegs ∨
    ∃ c rest i, s.port = c :: rest ∧ s.accepts c = true ∧ decode c = .instr i ∧
      t.commandRegs = (commandEffect i s).commandRegs := by
  rcases hostStep_cases h with ⟨-, rfl⟩ | ⟨c, rest, hp, ⟨-, -, rfl⟩ | ⟨-, -, rfl⟩ | ⟨-, -, rfl⟩ | ⟨ha, i, u, hd, he, rfl⟩⟩
  · exact .inl rfl
  · exact .inl rfl
  · exact .inl rfl
  · exact .inl (State.raiseFault_commandRegs _ _ _ s.popPort)
  · rcases exec_cases he with ⟨-, f, n, rfl⟩ | ⟨-, rfl⟩
    · left; split <;> rfl
    · refine .inr ⟨c, rest, i, hp, ha, hd, ?_⟩
      split <;> rfl

/-- No command writes the parameters. -/
theorem commandEffect_params (i : Instr) (s : State) : (commandEffect i s).params = s.params := by
  cases i
  case encFrame cap canvas => exact (sourceAnswered_same cap canvas s).1.1
  case bcRead w => simp [commandEffect]
  case stateRead r => simp only [commandEffect]; split <;> rfl
  all_goals rfl

/-- Of the commands only `ENC_CONFIG` writes the configuration (10_state.md R22). -/
theorem commandEffect_sameConfig (i : Instr) (s : State) :
    SameConfig s (commandEffect i s) ∨ ∃ e b p, i = .encConfig e b p := by
  cases i
  case encConfig e b p => exact .inr ⟨e, b, p, rfl⟩
  case encFrame cap canvas => exact .inl (sourceAnswered_same cap canvas s).1
  case bcRead w => left; simp [commandEffect, SameConfig]
  case stateRead r => left; simp only [commandEffect]; split <;> exact ⟨rfl, rfl, rfl, rfl⟩
  all_goals exact .inl ⟨rfl, rfl, rfl, rfl⟩

/-- Of the commands only `BF_READ`, `BC_READ` and `STATE_READ` write `RES` (10_state.md R24). -/
theorem commandEffect_sameRes (i : Instr) (s : State) :
    SameRes s (commandEffect i s) ∨ (∃ o w, i = .bfRead o w) ∨ (∃ w, i = .bcRead w) ∨ ∃ r, i = .stateRead r := by
  cases i
  case bfRead o w => exact .inr (.inl ⟨o, w, rfl⟩)
  case bcRead w => exact .inr (.inr (.inl ⟨w, rfl⟩))
  case stateRead r => exact .inr (.inr (.inr ⟨r, rfl⟩))
  case encFrame cap canvas => exact .inl (sourceAnswered_same cap canvas s).2.1
  all_goals exact .inl ⟨rfl, rfl⟩

/-- Of the commands only `BC_READ` and `BC_EXHAUSTED` write `FLAG` (10_state.md R24). -/
theorem commandEffect_sameFlag (i : Instr) (s : State) :
    SameFlag s (commandEffect i s) ∨ (∃ w, i = .bcRead w) ∨ i = .bcExhausted := by
  cases i
  case bcRead w => exact .inr (.inl ⟨w, rfl⟩)
  case bcExhausted => exact .inr (.inr rfl)
  case encFrame cap canvas => exact .inl (sourceAnswered_same cap canvas s).2.2
  case stateRead r => left; simp only [commandEffect]; split <;> exact ⟨rfl, rfl⟩
  all_goals exact .inl ⟨rfl, rfl⟩

/-- A step is the reset, or leaves the registers only commands and reset write, or is the host's and leaves them as the
effect of the command at the head of the port does. -/
theorem step_commandRegs (h : step s = .next t) :
    (s.turn = .reset ∧ t = s.nextTurn.applyReset) ∨ t.commandRegs = s.commandRegs ∨
    (s.turn = .host ∧ ∃ c rest i, s.port = c :: rest ∧ s.accepts c = true ∧ decode c = .instr i ∧
      t.commandRegs = (commandEffect i s.nextTurn).commandRegs) := by
  rcases step_cases h with hreset | ⟨-, h⟩ | ⟨hturn, h⟩
  · exact .inl hreset
  · have hsame := engineStep_commandRegs h
    exact .inr (.inl hsame)
  · rcases hostStep_commandRegs h with hsame | hcmd
    · exact .inr (.inl hsame)
    · exact .inr (.inr ⟨hturn, hcmd⟩)

/-- Settles O56: a step that changes `RES` or `FLAG` is the reset or one of the commands that write it. -/
theorem resultWrittenOnlyByItsCommands : Obligations.ResultWrittenOnlyByItsCommands := by
  intro s t h
  rcases step_commandRegs h with ⟨hreset, -⟩ | hsame | ⟨hturn, c, rest, i, hp, -, hd, hcmd⟩
  · exact ⟨fun _ => .inl hreset, fun _ => .inl hreset⟩
  · obtain ⟨-, hres, hflag⟩ := (commandRegs_eq_iff s t).1 hsame
    exact ⟨fun hn => absurd hres hn, fun hn => absurd hflag hn⟩
  · obtain ⟨-, hres, hflag⟩ := (commandRegs_eq_iff _ t).1 hcmd
    constructor
    · intro hn
      refine .inr ⟨hturn, c, rest, hp, ?_⟩
      rcases commandEffect_sameRes i s.nextTurn with hsame | hi
      · exact absurd ⟨hres.1.trans hsame.1, hres.2.trans hsame.2⟩ hn
      · simpa [hd] using hi
    · intro hn
      refine .inr ⟨hturn, c, rest, hp, ?_⟩
      rcases commandEffect_sameFlag i s.nextTurn with hsame | hi
      · exact absurd ⟨hflag.1.trans hsame.1, hflag.2.trans hsame.2⟩ hn
      · simpa [hd] using hi

/-- Settles O57: a step that changes the configuration is the reset or an executed `ENC_CONFIG`, and none changes the
parameters. -/
theorem configWrittenOnlyByEncConfig : Obligations.ConfigWrittenOnlyByEncConfig := by
  intro s t h
  rcases step_commandRegs h with ⟨hreset, rfl⟩ | hsame | ⟨hturn, c, rest, i, hp, ha, hd, hcmd⟩
  · exact ⟨rfl, fun _ => .inl hreset⟩
  · have hconfig := ((commandRegs_eq_iff s t).1 hsame).1
    exact ⟨hconfig.1, fun hn => absurd hconfig hn⟩
  · obtain ⟨⟨hparams, hecc, hbps, hbpc⟩, -⟩ := (commandRegs_eq_iff _ t).1 hcmd
    refine ⟨hparams.trans (commandEffect_params i s.nextTurn), fun hn => .inr ⟨hturn, ?_⟩⟩
    rcases commandEffect_sameConfig i s.nextTurn with ⟨hparams', hecc', hbps', hbpc'⟩ | ⟨e, b, p, rfl⟩
    · exact absurd ⟨hparams.trans hparams', hecc.trans hecc', hbps.trans hbps', hbpc.trans hbpc'⟩ hn
    · rcases stateRead_or_idle_of_accepts ha hd with ⟨r, hr⟩ | hidle
      · cases hr
      · exact ⟨hidle, c, rest, hp, e, b, p, hd⟩

end Sys2Proof.Machine
end

section
/-! What the invariant says of the frame, one characterisation per value of `ENG`, and the arithmetic of the stripes
(00_scope.md R12). -/

namespace Sys2Proof.Machine

variable {s t : State}

/-- The part of `FrameLegal` that every running frame shares, whatever micro-step comes next. -/
structure State.FrameRunning (s : State) : Prop where
  busy : s.frameStatus = .busy
  valid : s.bfValid = true
  stripe : s.bpo ≤ s.bfCap.toNat
  posAligned : s.pos.toNat % s.bpo = 0
  posLe : s.pos.toNat ≤ s.stripeLimit
  dposAligned : s.dpos.toNat % s.bpo = 0
  dposLe : s.dpos.toNat ≤ s.stripeLimit
  cells : s.cellCount.toNat * s.bpo = s.dpos.toNat

/-- The part of `FrameLegal` that holds while the interleaver still has a stripe to fill. -/
structure State.Filling (s : State) : Prop where
  phase : s.phase ≠ .complete
  posLt : s.pos.toNat < s.stripeLimit
  dpos : s.dpos = 0#32

theorem frameRunning_iff (s : State) :
    s.FrameRunning ↔ s.frameStatus = .busy ∧ s.bfValid = true ∧ s.bpo ≤ s.bfCap.toNat ∧
      s.pos.toNat % s.bpo = 0 ∧ s.pos.toNat ≤ s.stripeLimit ∧
      s.dpos.toNat % s.bpo = 0 ∧ s.dpos.toNat ≤ s.stripeLimit ∧ s.cellCount.toNat * s.bpo = s.dpos.toNat :=
  ⟨fun ⟨h1, h2, h3, h4, h5, h6, h7, h8⟩ => ⟨h1, h2, h3, h4, h5, h6, h7, h8⟩,
   fun ⟨h1, h2, h3, h4, h5, h6, h7, h8⟩ => ⟨h1, h2, h3, h4, h5, h6, h7, h8⟩⟩

theorem filling_iff (s : State) :
    s.Filling ↔ s.phase ≠ .complete ∧ s.pos.toNat < s.stripeLimit ∧ s.dpos = 0#32 :=
  ⟨fun ⟨h1, h2, h3⟩ => ⟨h1, h2, h3⟩, fun ⟨h1, h2, h3⟩ => ⟨h1, h2, h3⟩⟩

theorem frameLegal_of_idle (he : s.eng = .idle) : s.FrameLegal ↔ s.frameStatus ≠ .busy := by
  simp [State.FrameLegal, he]

theorem frameLegal_of_pull (he : s.eng = .pull) : s.FrameLegal ↔ s.FrameRunning ∧ s.Filling := by
  simp [State.FrameLegal, frameRunning_iff, filling_iff, he]

theorem frameLegal_of_fill (he : s.eng = .fill) :
    s.FrameLegal ↔ s.FrameRunning ∧ s.Filling ∧ s.bcBound = true := by
  simp [State.FrameLegal, frameRunning_iff, filling_iff, he, and_assoc]

theorem frameLegal_of_drain (he : s.eng = .drain) :
    s.FrameLegal ↔ s.FrameRunning ∧ (s.phase = .complete ↔ s.pos.toNat = s.stripeLimit) := by
  simp [State.FrameLegal, frameRunning_iff, he]

/-- A legal configuration has stripes of at least two bits. -/
theorem State.ConfigLegal.two_le_bpo (h : s.ConfigLegal) : 2 ≤ s.bpo := by
  obtain ⟨-, hbps, hbpc, -⟩ := h
  simp only [State.bpo]; omega

theorem State.stripeLimit_le_bfCap (s : State) : s.stripeLimit ≤ s.bfCap.toNat := Nat.div_mul_le_self _ _

/-- A field that holds a stripe has room to fill. -/
theorem State.stripeLimit_pos (hpos : 0 < s.bpo) (hcap : s.bpo ≤ s.bfCap.toNat) : 0 < s.stripeLimit :=
  Nat.mul_pos (Nat.div_pos hcap hpos) hpos

/-- From a stripe boundary below the stripe limit the next boundary is not past it, and is a 32-bit word. -/
theorem State.next_stripe {p : Nat} (haligned : p % s.bpo = 0) (hlt : p < s.stripeLimit) :
    p + s.bpo ≤ s.stripeLimit ∧ (BitVec.ofNat 32 (p + s.bpo)).toNat = p + s.bpo := by
  have hmod : p ≡ s.stripeLimit [MOD s.bpo] := haligned.trans (Nat.mul_mod_left _ _).symm
  have hle : p + s.bpo ≤ s.stripeLimit := hmod.add_le_of_lt hlt
  have hcap := s.stripeLimit_le_bfCap
  exact ⟨hle, by rw [BitVec.toNat_ofNat, Nat.mod_eq_of_lt]; omega⟩

end Sys2Proof.Machine
end

section
/-! One rule per operation: which operations keep the invariant, and on what condition. -/

namespace Sys2Proof.Machine

variable {s t : State}

/-! ### Operations on what the invariant does not speak of -/

theorem State.Inv.setRes (h : s.Inv) (v : Word) : (s.setRes v).Inv := { h with }
theorem State.Inv.setFlag (h : s.Inv) (b : Bool) : (s.setFlag b).Inv := { h with }
theorem State.Inv.drawn (h : s.Inv) : s.drawn.Inv := { h with }
theorem State.Inv.popPort (h : s.Inv) : s.popPort.Inv := { h with }
theorem State.Inv.nextTurn (h : s.Inv) : s.nextTurn.Inv := { h with }
theorem State.Inv.setOracles (h : s.Inv) (o : Oracles) : (s.setOracles o).Inv := { h with }

/-! ### Faults and reset; what holds of a part that is empty -/

/-- No BitField: capacity 0 and no bit (10_state.md R26). -/
theorem fieldLegal_of_absent (hvalid : s.bfValid = false) (hcap : s.bfCap = 0#32) (hfield : s.field = []) :
    s.FieldLegal :=
  ⟨hfield ▸ Memory.wf_nil, by simp [hfield], by simp [hvalid], fun _ => hcap⟩

/-- A BitField of legal capacity whose bits are all 0 (40_bitfield.md R104). -/
theorem fieldLegal_of_zeros (hvalid : s.bfValid = true) (hfield : s.field = []) (hpos : 1 ≤ s.bfCap.toNat)
    (hmax : s.bfCap.toNat ≤ s.params.maxCapBits) : s.FieldLegal :=
  ⟨hfield ▸ Memory.wf_nil, by simp [hfield], fun _ => ⟨hpos, hmax⟩, by simp [hvalid]⟩

/-- A BitCursor over no bytes (10_state.md R27). -/
theorem cursorLegal_of_empty (hlen : s.bcLen = 0#32) (hcur : s.bcCur = 0#32) (hbuf : s.buf = []) :
    s.CursorLegal := by
  simp [State.CursorLegal, hlen, hcur, hbuf]

/-- With no fault recorded the fault registers are legal (10_state.md R34). -/
theorem faultLegal_of_none (hf : s.fault = 0#32) (hi : s.faultInfo = 0#32) : s.FaultLegal := by
  simp [State.FaultLegal, State.halted, hf, hi]

/-- The reset state of legal parameters meets the invariant (70_reset_and_hazards.md R260). -/
theorem State.Inv.applyReset (h : s.Inv) : s.applyReset.Inv := by
  obtain ⟨-, -, hecc, hwidths⟩ := h.params
  exact {
    params := h.params
    config := ⟨hecc, hwidths⟩
    field := fieldLegal_of_absent rfl rfl rfl
    cursor := cursorLegal_of_empty rfl rfl rfl
    frame := (frameLegal_of_idle rfl).2 nofun
    fault := faultLegal_of_none rfl rfl }

theorem Cause.code_range (k : Cause) : 1 ≤ k.code.toNat ∧ k.code.toNat ≤ 9 := by
  cases k <;> decide

/-- A recorded fault is a legal fault word, and no other register changes (60_exceptions.md R231). -/
theorem State.Inv.raiseFault (h : s.Inv) (e : Bool) (c : BitVec 8) (r : Raise) : (s.raiseFault e c r).Inv := by
  cases hh : s.halted with
  | true => rwa [State.raiseFault_halted hh]
  | false =>
    rw [State.raiseFault_fresh hh]
    exact { h with
      fault := ⟨fun hn => absurd hn (by simp [State.halted]), by simp, fun _ => by
        simpa using Cause.code_range r.cause⟩ }

/-- A command with a check keeps the invariant when its effect does once the check has passed. -/
theorem State.Inv.checked (h : s.Inv) (op : Op) {check : Option Raise} {done : State} (hd : check = none → done.Inv) :
    (checked op check s done).Inv := by
  rcases checked_cases op check s done with ⟨r, -, e⟩ | ⟨hc, e⟩ <;> rw [e]
  · exact h.raiseFault _ _ _
  · exact hd hc

/-! ### BitField and BitCursor -/

/-- A write inside the capacity keeps the canonical form and the bounds of `FIELD` (40_bitfield.md R102). -/
theorem State.Inv.fieldWrite (h : s.Inv) {o w : Nat} (v : Word) (hcap : o + w ≤ s.bfCap.toNat) :
    (s.fieldWrite o w v).Inv := by
  obtain ⟨hwf, hbound, hvalid⟩ := h.field
  refine { h with field := ⟨Memory.writeBits_wf hwf _ _ _, fun c hc => ?_, hvalid⟩ }
  rcases Memory.mem_writeBits hc with hc | ⟨-, hlt⟩
  · exact hbound c hc
  · exact Nat.lt_of_lt_of_le hlt hcap

/-- A new field of legal capacity, while no frame runs (40_bitfield.md R104). -/
theorem State.Inv.createField (h : s.Inv) (hidle : s.eng = .idle) {cap : Word} (hpos : 1 ≤ cap.toNat)
    (hmax : cap.toNat ≤ s.params.maxCapBits) : (s.createField cap).Inv :=
  { h with
    field := fieldLegal_of_zeros rfl rfl hpos hmax
    frame := (frameLegal_of_idle (s := s.createField cap) hidle).2 ((frameLegal_of_idle hidle).1 h.frame) }

/-- A chunk of legal length is bound, at any point (41_bitcursor.md R131). -/
theorem State.Inv.bindBuffer (h : s.Inv) {bytes : List Byte} (hlen : bytes.length ≤ s.params.maxChunkBytes) :
    (s.bindBuffer bytes).Inv := by
  obtain ⟨hidle, hrun, hfill, -, hdrain⟩ := h.frame
  obtain ⟨-, ⟨-, hmax⟩, -⟩ := h.params
  have hword : (BitVec.ofNat 32 bytes.length).toNat = bytes.length := by
    rw [BitVec.toNat_ofNat, Nat.mod_eq_of_lt (by omega)]
  exact { h with
    cursor := ⟨hword, hword ▸ hlen, Nat.zero_le _, nofun⟩
    frame := ⟨hidle, hrun, hfill, fun _ => rfl, hdrain⟩ }

/-- A cursor read, full or partial, leaves the cursor inside the buffer (41_bitcursor.md R132, R135). -/
theorem State.Inv.cursorRead (h : s.Inv) (w : Nat) : (s.cursorRead w).after.Inv := by
  obtain ⟨hlen, hchunk, hcur, hunbound⟩ := h.cursor
  obtain ⟨-, ⟨-, hmax⟩, -⟩ := h.params
  cases hp : s.partialRead w with
  | true =>
    rw [State.cursorRead_partial hp]
    refine { h with cursor := ⟨hlen, hchunk, ?_, hunbound⟩ }
    exact BitVec.toNat_ofNat _ _ ▸ Nat.mod_le _ _
  | false =>
    rw [State.cursorRead_full hp]
    refine { h with cursor := ⟨hlen, hchunk, ?_, hunbound⟩ }
    have hleft : ¬ 8 * s.bcLen.toNat - s.bcCur.toNat < w := by
      rw [← State.partialRead_iff, hp]; exact Bool.false_ne_true
    have hfit : s.bcCur.toNat + w ≤ 8 * s.bcLen.toNat := by omega
    exact BitVec.toNat_ofNat _ _ ▸ (Nat.mod_le _ _).trans hfit

/-! ### Configuration and the life of a frame -/

/-- A signed word that counts as given is a legal `CFG_ECC` (42_engine.md R161). -/
theorem orDefault_range {x d : Word} (hd : 1 ≤ d.toNat ∧ d.toNat ≤ 2 ^ 31 - 1) :
    1 ≤ (orDefault x d).toNat ∧ (orDefault x d).toNat ≤ 2 ^ 31 - 1 := by
  unfold orDefault
  split
  · exact hd
  · rename_i hx
    rw [BitVec.toInt_eq_toNat_cond] at hx
    split at hx <;> omega

/-- A legal configuration is written while no frame runs (42_engine.md R161). -/
theorem State.Inv.setConfig (h : s.Inv) (hidle : s.eng = .idle) {e b c : Word}
    (hecc : 1 ≤ e.toNat ∧ e.toNat ≤ 2 ^ 31 - 1) (hwidths : 1 ≤ b.toNat ∧ 1 ≤ c.toNat ∧ b.toNat + c.toNat ≤ 32) :
    (s.setConfig e b c).Inv :=
  { h with
    config := ⟨hecc, hwidths⟩
    frame := (frameLegal_of_idle (s := s.setConfig e b c) hidle).2 ((frameLegal_of_idle hidle).1 h.frame) }

/-- A frame of a capacity that holds a stripe starts with nothing filled and nothing drained (42_engine.md R170). -/
theorem State.Inv.startFrame (h : s.Inv) {cap : Word} (canvas : Word) (hstripe : s.bpo ≤ cap.toNat)
    (hmax : cap.toNat ≤ s.params.maxCapBits) : (s.startFrame cap canvas).Inv := by
  have hbpo := h.config.two_le_bpo
  have hpos : 1 ≤ cap.toNat := by omega
  have hrun : (s.startFrame cap canvas).FrameRunning :=
    ⟨rfl, rfl, hstripe, Nat.zero_mod _, Nat.zero_le _, Nat.zero_mod _, Nat.zero_le _, Nat.zero_mul _⟩
  have hroom : 0 < (s.startFrame cap canvas).stripeLimit :=
    State.stripeLimit_pos (show 0 < s.bpo by omega) hstripe
  exact { h with
    field := fieldLegal_of_zeros rfl rfl hpos hmax
    cursor := cursorLegal_of_empty rfl rfl rfl
    frame := (frameLegal_of_pull rfl).2 ⟨hrun, nofun, hroom, rfl⟩ }

/-- A stream that has ended starts no frame (42_engine.md R172). -/
theorem State.Inv.endOfStream (h : s.Inv) (hidle : s.eng = .idle) : { s with frameStatus := .endOfStream }.Inv :=
  { h with frame := (frameLegal_of_idle (s := { s with frameStatus := .endOfStream }) hidle).2 nofun }

/-- A frame ends with the BitField and the BitCursor discarded (42_engine.md R188). -/
theorem State.Inv.endFrame (h : s.Inv) : s.endFrame.Inv :=
  { h with
    field := fieldLegal_of_absent rfl rfl rfl
    cursor := cursorLegal_of_empty rfl rfl rfl
    frame := (frameLegal_of_idle rfl).2 nofun }

/-! ### The engine's transitions -/

/-- From `PULL` to `DRAIN`: the stripe limit is not reached and the phase is not `Complete` (42_engine.md R181). -/
theorem State.Inv.pull_to_drain (h : s.Inv) (he : s.eng = .pull) : (s.setEng .drain).Inv := by
  obtain ⟨hrun, hphase, hpos, -⟩ := (frameLegal_of_pull he).1 h.frame
  exact { h with frame := (frameLegal_of_drain rfl).2 ⟨{ hrun with }, iff_of_false hphase (Nat.ne_of_lt hpos)⟩ }

/-- From `PULL` to `FILL`, once a chunk is bound (42_engine.md R181). -/
theorem State.Inv.pull_to_fill (h : s.Inv) (he : s.eng = .pull) (hbound : s.bcBound = true) :
    (s.setEng .fill).Inv := by
  obtain ⟨hrun, hfilling⟩ := (frameLegal_of_pull he).1 h.frame
  exact { h with frame := (frameLegal_of_fill rfl).2 ⟨{ hrun with }, { hfilling with }, hbound⟩ }

/-- From `FILL` back to `PULL` when the chunk is used up (42_engine.md R183). -/
theorem State.Inv.fill_to_pull (h : s.Inv) (he : s.eng = .fill) : (s.setEng .pull).Inv := by
  obtain ⟨hrun, hfilling, -⟩ := (frameLegal_of_fill he).1 h.frame
  exact { h with frame := (frameLegal_of_pull rfl).2 ⟨{ hrun with }, { hfilling with }⟩ }

/-- The stripe advance in `FILL` (42_engine.md R186): `POS` goes to the next stripe; at the stripe limit the symbols give way
to the colors, and the colors to the drain. -/
theorem State.Inv.advance (h : s.Inv) (he : s.eng = .fill) : s.advance.Inv := by
  obtain ⟨hrun, hfilling, hbound⟩ := (frameLegal_of_fill he).1 h.frame
  obtain ⟨hle, hword⟩ := State.next_stripe hrun.posAligned hfilling.posLt
  have haligned : (BitVec.ofNat 32 (s.pos.toNat + s.bpo)).toNat % s.bpo = 0 := by
    rw [hword, Nat.add_mod_right, hrun.posAligned]
  have hle' : (BitVec.ofNat 32 (s.pos.toNat + s.bpo)).toNat ≤ s.stripeLimit := hword.trans_le hle
  have hroom : 0 < s.stripeLimit := Nat.zero_lt_of_lt hfilling.posLt
  unfold State.advance
  simp only
  split
  case isTrue hlimit =>
    split
    · exact { h with
        frame := (frameLegal_of_pull rfl).2
          ⟨{ hrun with posAligned := Nat.zero_mod _, posLe := Nat.zero_le _ }, nofun, hroom, hfilling.dpos⟩ }
    · exact { h with
        frame := (frameLegal_of_drain rfl).2
          ⟨{ hrun with posAligned := haligned, posLe := hle' }, iff_of_true rfl (hword.trans hlimit)⟩ }
  case isFalse hlimit =>
    have hlt : (BitVec.ofNat 32 (s.pos.toNat + s.bpo)).toNat < s.stripeLimit := by omega
    exact { h with
      frame := (frameLegal_of_fill (s := { s with pos := BitVec.ofNat 32 (s.pos.toNat + s.bpo) }) he).2
        ⟨{ hrun with posAligned := haligned, posLe := hle' }, { hfilling with posLt := hlt }, hbound⟩ }

/-- One more cell drained: `DPOS` goes to the next stripe and the cell count with it (42_engine.md R187). -/
theorem State.Inv.drainCell (h : s.Inv) (he : s.eng = .drain) (hlt : s.dpos.toNat < s.stripeLimit) :
    s.drainCell.Inv := by
  obtain ⟨hrun, hphase⟩ := (frameLegal_of_drain he).1 h.frame
  obtain ⟨hle, hword⟩ := State.next_stripe hrun.dposAligned hlt
  have hcount : (s.cellCount + 1#32).toNat = s.cellCount.toNat + 1 := by
    have hbpo := h.config.two_le_bpo
    have hcells := hrun.cells
    have hdouble : s.cellCount.toNat * 2 ≤ s.cellCount.toNat * s.bpo := Nat.mul_le_mul_left _ hbpo
    rw [BitVec.toNat_add, BitVec.toNat_ofNat, Nat.mod_eq_of_lt (a := 1) (by decide), Nat.mod_eq_of_lt (by omega)]
  have hdrained : s.drainCell.FrameRunning :=
    { hrun with
      dposAligned := by
        change (BitVec.ofNat 32 (s.dpos.toNat + s.bpo)).toNat % s.bpo = 0
        rw [hword, Nat.add_mod_right, hrun.dposAligned]
      dposLe := hword.trans_le hle
      cells := by
        change (s.cellCount + 1#32).toNat * s.bpo = (BitVec.ofNat 32 (s.dpos.toNat + s.bpo)).toNat
        rw [hcount, hword, Nat.add_mul, Nat.one_mul, hrun.cells] }
  exact { h with frame := (frameLegal_of_drain (s := s.drainCell) he).2 ⟨hdrained, hphase⟩ }

end Sys2Proof.Machine
end

section
/-! Every step keeps the invariant: the commands, the micro-steps, the turns. -/

namespace Sys2Proof.Machine

variable {s t : State}

/-- `ENC_FRAME` past its check keeps the invariant, whatever the source answers (42_engine.md R170, R172). -/
theorem State.Inv.sourceAnswered (h : s.Inv) (hidle : s.eng = .idle) {cap : Word} (canvas : Word)
    (hstripe : s.bpo ≤ cap.toNat) (hmax : cap.toNat ≤ s.params.maxCapBits) :
    (sourceAnswered cap canvas s).Inv := by
  rcases sourceAnswered_cases cap canvas s with e | ⟨o, e | e⟩ <;> rw [e]
  · exact h
  · exact (h.setOracles o).endOfStream hidle
  · exact (h.setOracles o).startFrame canvas hstripe hmax

/-- The effect of a command that passed its check keeps the invariant; all but `STATE_READ` need the engine idle. -/
theorem State.Inv.commandEffect (h : s.Inv) {i : Instr} (hacc : (∃ r, i = .stateRead r) ∨ s.eng = .idle)
    (hcheck : commandCheck i s = none) : (commandEffect i s).Inv := by
  cases i with
  | stateRead r =>
    simp only [Machine.commandEffect]
    split
    · exact h.drawn.setRes _
    · exact h.setRes _
  | bfInit cap =>
    obtain ⟨hpos, hmax⟩ := (initCheck_eq_none cap s).1 hcheck
    exact h.createField (hacc.resolve_left nofun) hpos hmax
  | bfWrite v o w =>
    obtain ⟨-, -, hcap⟩ := (bfCheck_eq_none _ _ s).1 hcheck
    exact h.fieldWrite v hcap
  | bfRead o w => exact h.setRes _
  | bcRebind payload => exact h.bindBuffer ((chunkCheck_eq_none _ s).1 hcheck)
  | bcRead w => exact ((h.cursorRead w.toNat).setRes _).setFlag _
  | bcExhausted => exact h.setFlag _
  | encConfig ecc bps bpc =>
    obtain ⟨-, -, hdefault, -⟩ := h.params
    exact h.setConfig (hacc.resolve_left nofun) (orDefault_range hdefault) ((configCheck_eq_none _ _).1 hcheck)
  | encFrame cap canvas =>
    obtain ⟨hstripe, hmax⟩ := (frameCheck_eq_none cap s).1 hcheck
    exact h.sourceAnswered (hacc.resolve_left nofun) canvas hstripe hmax

/-- An accepted command keeps the invariant. -/
theorem exec_keeps_inv {i : Instr} (h : s.Inv) (hacc : (∃ r, i = .stateRead r) ∨ s.eng = .idle)
    (he : exec i s = .next t) : t.Inv := by
  rw [exec_eq_checked] at he
  obtain rfl := Host.Outcome.next.inj he
  exact h.checked i.op fun hcheck => h.commandEffect hacc hcheck

theorem hostStep_keeps_inv (h : s.Inv) (hs : hostStep s = .next t) : t.Inv := by
  rcases hostStep_cases hs with ⟨-, rfl⟩ | ⟨c, rest, hp, ⟨-, -, rfl⟩ | ⟨-, -, rfl⟩ | ⟨-, -, rfl⟩ | ⟨ha, i, u, hd, he, rfl⟩⟩
  · exact h
  · exact h.popPort
  · exact h
  · exact h.popPort.raiseFault _ _ _
  · have hu := exec_keeps_inv h (stateRead_or_idle_of_accepts ha hd) he
    split
    · exact hu
    · exact hu.popPort

theorem enginePull_keeps_inv (h : s.Inv) (he : s.eng = .pull) (hs : enginePull s = .next t) : t.Inv := by
  rcases enginePull_cases hs with rfl | ⟨gs, ns, rfl⟩ | ⟨gs, ns, n, -, rfl⟩ | ⟨gs, ns, n, -, hmax, -, rfl⟩
  · exact h
  · exact (h.setOracles _).pull_to_drain he
  · exact (h.setOracles _).raiseFault _ _ _
  · have hlen : (s.oracles.fecStream.take n.toNat).length ≤ s.params.maxChunkBytes :=
      (List.length_take_le _ _).trans hmax
    have hasked := h.setOracles ⟨s.oracles.srcGood, gs, ns, s.oracles.fecStream.drop n.toNat⟩
    exact (hasked.bindBuffer hlen).pull_to_fill he rfl

theorem engineFill_keeps_inv (h : s.Inv) (he : s.eng = .fill) (hs : engineFill s = .next t) : t.Inv := by
  rcases engineFill_cases hs with ⟨-, rfl⟩ | ⟨-, -, -, ⟨-, rfl⟩ | ⟨-, hdef, rfl⟩⟩
  · exact h.fill_to_pull he
  · exact (h.cursorRead _).advance (by simpa using he)
  · have hcap : s.pos.toNat + s.writeWidth ≤ s.bfCap.toNat := by
      simp only [State.fieldDefined, Bool.and_eq_true, decide_eq_true_eq] at hdef
      exact hdef.2
    exact ((h.cursorRead _).fieldWrite _ (by simpa using hcap)).advance (by simpa using he)

theorem engineDrain_keeps_inv (h : s.Inv) (he : s.eng = .drain) (hs : engineDrain s = .next t) : t.Inv := by
  rcases engineDrain_cases hs with ⟨hlt, -, rfl⟩ | ⟨-, rfl⟩
  · exact h.drainCell he hlt
  · exact h.endFrame

theorem engineStep_keeps_inv (h : s.Inv) (hs : engineStep s = .next t) : t.Inv := by
  rcases engineStep_cases hs with ⟨-, rfl⟩ | ⟨-, ⟨he, hs⟩ | ⟨he, hs⟩ | ⟨he, hs⟩⟩
  · exact h
  · exact enginePull_keeps_inv h he hs
  · exact engineFill_keeps_inv h he hs
  · exact engineDrain_keeps_inv h he hs

/-- Settles O15: the invariant is kept by reset, by the engine's step and by the host's. -/
theorem stepKeepsInvariant : Obligations.StepKeepsInvariant := by
  intro s t h hs
  rcases step_cases hs with ⟨-, rfl⟩ | ⟨-, hs⟩ | ⟨-, hs⟩
  · exact h.nextTurn.applyReset
  · exact engineStep_keeps_inv h.nextTurn hs
  · exact hostStep_keeps_inv h.nextTurn hs

end Sys2Proof.Machine
end

section
/-! Reads of the bit spaces: a field read splits at any point (20_memory.md R67), and a full cursor read is the bits of the
stream from the cursor on (R61). -/

namespace Sys2Proof.Machine

variable {s t : State}

/-- The bits of `a + b` offsets are those of the first `a`, then those of the next `b`. -/
theorem Memory.readBits_add (m : Memory) (o a b : Nat) :
    m.readBits o (a + b) = m.readBits o a * 2 ^ b + m.readBits (o + a) b := by
  induction a generalizing o with
  | zero => simp [Memory.readBits]
  | succ a ih =>
    rw [show a + 1 + b = (a + b) + 1 by omega]
    simp only [Memory.readBits]
    rw [ih, show o + 1 + a = o + (a + 1) by omega, Nat.pow_add]
    ring

/-- Settles O24: the two halves are read with the first in the high bits. -/
theorem fieldReadSplits : Obligations.FieldReadSplits := by
  intro s o a b h
  rw [s.fieldRead_toNat o h, s.fieldRead_toNat o (by omega), s.fieldRead_toNat (o + a) (by omega),
    Memory.readBits_add]

/-- A command whose check passes has its effect. -/
theorem exec_of_commandCheck {i : Instr} (h : commandCheck i s = none) : exec i s = .next (commandEffect i s) := by
  rw [exec_eq_checked, h, checked]

/-- A full read of at most 32 bits answers the number the next `w` stream bits make (20_memory.md R61). -/
theorem State.cursorRead_value_toNat {w : Nat} (hfull : s.partialRead w = false) (hw : w ≤ 32) :
    (s.cursorRead w).value.toNat = bufBits s.buf s.bcCur.toNat w := by
  rw [State.cursorRead_full hfull, BitVec.toNat_ofNat, Nat.mod_eq_of_lt]
  exact (bufBits_lt _ _ _).trans_le (Nat.pow_le_pow_right (by decide) hw)

/-- Bit `w-1-j` of a full read is stream bit `BC_CUR+j` (20_memory.md R61). -/
theorem State.cursorRead_value_getLsbD {w j : Nat} (hfull : s.partialRead w = false) (hw : w ≤ 32) (hj : j < w) :
    (s.cursorRead w).value.getLsbD (w - 1 - j) = bufBit s.buf (s.bcCur.toNat + j) := by
  rw [← BitVec.testBit_toNat, State.cursorRead_value_toNat hfull hw, testBit_bufBits _ _ hj]

/-- What a full `BC_READ` leaves: the value in `RES`, `FLAG` 0, the cursor advanced (41_bitcursor.md R132, R136). -/
theorem commandEffect_bcRead_full {w : BitVec 6} (hfull : s.partialRead w.toNat = false) :
    commandEffect (.bcRead w) s =
      { s with
        res := (s.cursorRead w.toNat).value, resWritten := true, flag := false, flagWritten := true
        bcCur := BitVec.ofNat 32 (s.bcCur.toNat + w.toNat) } := by
  simp only [commandEffect, State.cursorRead_full hfull]
  rfl

/-- Settles O28: the check passes and the read is full; the cursor stays a 32-bit word because the buffer is below 2^29
bytes. -/
theorem bcReadFull : Obligations.BcReadFull := by
  intro w s hbound hpos hmax hleft hlen
  have hcheck : commandCheck (.bcRead w) s = none := (bcCheck_eq_none _ s).2 ⟨hbound, hpos, hmax⟩
  have hfull : s.partialRead w.toNat = false := by
    rw [← Bool.not_eq_true, State.partialRead_iff]; omega
  refine ⟨_, (exec_of_commandCheck hcheck).trans (congrArg _ (commandEffect_bcRead_full hfull)), ?_, ?_, ?_, rfl⟩
  · intro j hj
    exact State.cursorRead_value_getLsbD hfull hmax hj
  · exact State.cursorRead_value_lt hfull
  · exact BitVec.toNat_ofNat .. ▸ Nat.mod_eq_of_lt (by omega)

end Sys2Proof.Machine
end

section
/-! The frame of the commands that store to the BitField (40_bitfield.md R104, R105). -/

namespace Sys2Proof.Machine

variable {s t : State}

/-- A change of the BitField and the fault record alone leaves all other registers and everything outside the block. -/
theorem same_outside_field_and_fault (s : State) (valid : Bool) (cap : Word) (m : Memory) (f n : Word) :
    let t := { s with bfValid := valid, bfCap := cap, field := m, fault := f, faultInfo := n }
    SameConfig s t ∧ SameCursor s t ∧ SameEngine s t ∧ SameRes s t ∧ SameFlag s t ∧ SameOutside s t ∧
      t.draws = s.draws :=
  ⟨⟨rfl, rfl, rfl, rfl⟩, ⟨rfl, rfl, rfl, rfl⟩, ⟨rfl, rfl, rfl, rfl, rfl, rfl⟩, ⟨rfl, rfl⟩, ⟨rfl, rfl⟩,
    ⟨rfl, rfl, rfl, rfl⟩, rfl⟩

/-- `BF_INIT` and `BF_WRITE`, whether their check passes or fails, change no more than the BitField and the fault record. -/
theorem exec_storing_frame {i : Instr} (hi : (∃ cap, i = .bfInit cap) ∨ ∃ v o w, i = .bfWrite v o w)
    (h : exec i s = .next t) :
    SameConfig s t ∧ SameCursor s t ∧ SameEngine s t ∧ SameRes s t ∧ SameFlag s t ∧ SameOutside s t ∧
      t.draws = s.draws := by
  rcases exec_cases h with ⟨-, f, n, rfl⟩ | ⟨-, rfl⟩
  · exact same_outside_field_and_fault s _ _ _ f n
  · rcases hi with ⟨cap, rfl⟩ | ⟨v, o, w, rfl⟩
    · exact same_outside_field_and_fault s _ _ _ _ _
    · exact same_outside_field_and_fault s _ _ _ _ _

/-- `BF_WRITE` keeps the BitField's capacity and every bit outside `[o, o+w)` (40_bitfield.md R102). -/
theorem exec_bfWrite_field {v o : Word} {w : BitVec 6} (h : exec (.bfWrite v o w) s = .next t) :
    t.bfValid = s.bfValid ∧ t.bfCap = s.bfCap ∧
      ∀ i, i < o.toNat ∨ o.toNat + w.toNat ≤ i → t.field.read i = s.field.read i := by
  rcases exec_cases h with ⟨-, f, n, rfl⟩ | ⟨-, rfl⟩
  · exact ⟨rfl, rfl, fun _ _ => rfl⟩
  · exact ⟨rfl, rfl, fun _ hi => Memory.read_writeBits_outside hi _ _⟩

/-- A command whose check fails leaves the BitField (60_exceptions.md R231). -/
theorem exec_sameField_of_check_fails {i : Instr} (h : exec i s = .next t) (hfail : commandCheck i s ≠ none) :
    SameField s t := by
  rcases exec_cases h with ⟨-, f, n, rfl⟩ | ⟨hpass, -⟩
  · exact ⟨rfl, rfl, fun _ => rfl⟩
  · exact absurd hpass hfail

/-- No command's effect is on the fault record. -/
theorem commandEffect_sameFault (i : Instr) (s : State) : SameFault s (commandEffect i s) := by
  cases i
  case encFrame cap canvas =>
    simp only [commandEffect]
    rcases sourceAnswered_cases cap canvas s with e | ⟨o, e | e⟩ <;> rw [e] <;> exact ⟨rfl, rfl⟩
  case bcRead w => simp [commandEffect, SameFault]
  case stateRead r => simp only [commandEffect]; split <;> exact ⟨rfl, rfl⟩
  all_goals exact ⟨rfl, rfl⟩

/-- A command whose check passes leaves the fault record. -/
theorem exec_sameFault_of_check_passes {i : Instr} (h : exec i s = .next t) (hpass : commandCheck i s = none) :
    SameFault s t := by
  rcases exec_cases h with ⟨hfail, -⟩ | ⟨-, rfl⟩
  · exact absurd hpass hfail
  · exact commandEffect_sameFault i s

/-- Settles O25: the registers by `exec_storing_frame`, the bits by `exec_bfWrite_field`, and the check decides between the
fault record and the BitField. -/
theorem storingCommandsFrame : Obligations.StoringCommandsFrame := by
  constructor
  · intro v o w s t h
    obtain ⟨hconfig, hrest⟩ := exec_storing_frame (.inr ⟨v, o, w, rfl⟩) h
    obtain ⟨hcursor, heng, hres, hflag, houtside, hdraws⟩ := hrest
    obtain ⟨hvalid, hcap, hbits⟩ := exec_bfWrite_field h
    refine ⟨hconfig, hvalid, hcap, hbits, hcursor, heng, hres, hflag, houtside, hdraws, ?_⟩
    have hcheck := bfCheck_eq_none o.toNat w.toNat s
    rw [and_assoc (a := 1 ≤ w.toNat)] at hcheck
    split
    case isTrue hc => exact exec_sameFault_of_check_passes h (hcheck.2 hc)
    case isFalse hc => exact exec_sameField_of_check_fails h (mt hcheck.1 hc)
  · intro cap s t h
    obtain ⟨hconfig, hcursor, heng, hres, hflag, houtside, hdraws⟩ := exec_storing_frame (.inl ⟨cap, rfl⟩) h
    refine ⟨hconfig, hcursor, heng, hres, hflag, houtside, hdraws, ?_⟩
    split
    case isTrue hc => exact exec_sameFault_of_check_passes h ((initCheck_eq_none cap s).2 hc)
    case isFalse hc => exact exec_sameField_of_check_fails h (mt (initCheck_eq_none cap s).1 hc)

end Sys2Proof.Machine
end

section
/-! The protected stream (20_memory.md R76): only a `PULL` step consumes it, from its front. -/

namespace Sys2Proof.Machine

variable {s t : State}

/-- No command consumes the protected stream: `ENC_FRAME` uses up an answer of the source alone. -/
theorem commandEffect_fecStream (i : Instr) (s : State) :
    (commandEffect i s).oracles.fecStream = s.oracles.fecStream := by
  cases i
  case encFrame cap canvas => simp only [commandEffect, sourceAnswered]; split <;> rfl
  case bcRead w => simp [commandEffect]
  case stateRead r => simp only [commandEffect]; split <;> rfl
  all_goals rfl

theorem exec_fecStream {i : Instr} (h : exec i s = .next t) : t.oracles.fecStream = s.oracles.fecStream := by
  rcases exec_cases h with ⟨-, f, n, rfl⟩ | ⟨-, rfl⟩
  · rfl
  · exact commandEffect_fecStream i s

theorem hostStep_fecStream (h : hostStep s = .next t) : t.oracles.fecStream = s.oracles.fecStream := by
  rcases hostStep_cases h with ⟨-, rfl⟩ | ⟨c, rest, -, ⟨-, -, rfl⟩ | ⟨-, -, rfl⟩ | ⟨-, -, rfl⟩ | ⟨-, i, u, -, he, rfl⟩⟩
  · rfl
  · rfl
  · rfl
  · simp [State.popPort]
  · have hu := exec_fecStream he
    split <;> exact hu

theorem engineFill_oracles (h : engineFill s = .next t) : t.oracles = s.oracles := by
  rcases engineFill_cases h with ⟨-, rfl⟩ | ⟨-, -, -, ⟨-, rfl⟩ | ⟨-, -, rfl⟩⟩
  · rfl
  · simp
  · simp

theorem engineDrain_oracles (h : engineDrain s = .next t) : t.oracles = s.oracles := by
  rcases engineDrain_cases h with ⟨-, -, rfl⟩ | ⟨-, rfl⟩ <;> rfl

/-- A `PULL` step leaves the stream, or takes a chunk from its front, binds it and goes to `FILL` (42_engine.md R181, R182). -/
theorem enginePull_fecStream (h : enginePull s = .next t) :
    t.oracles.fecStream = s.oracles.fecStream ∨
    (s.oracles.fecStream = t.buf ++ t.oracles.fecStream ∧ t.eng = .fill ∧ t.bcCur = 0#32 ∧ t.bcBound = true) := by
  rcases enginePull_cases h with rfl | ⟨gs, ns, rfl⟩ | ⟨gs, ns, n, -, rfl⟩ | ⟨gs, ns, n, -, -, -, rfl⟩
  · exact .inl rfl
  · exact .inl rfl
  · exact .inl (by simp)
  · exact .inr ⟨(List.take_append_drop n.toNat s.oracles.fecStream).symm, rfl, rfl, rfl⟩

/-- The engine's step leaves the stream, or is a `PULL` step that binds its front as the chunk. -/
theorem engineStep_fecStream (h : engineStep s = .next t) :
    t.oracles.fecStream = s.oracles.fecStream ∨
    (s.eng = .pull ∧
      s.oracles.fecStream = t.buf ++ t.oracles.fecStream ∧ t.eng = .fill ∧ t.bcCur = 0#32 ∧ t.bcBound = true) := by
  rcases engineStep_cases h with ⟨-, rfl⟩ | ⟨-, ⟨hpull, h⟩ | ⟨-, h⟩ | ⟨-, h⟩⟩
  · exact .inl rfl
  · exact (enginePull_fecStream h).imp_right fun hbound => ⟨hpull, hbound⟩
  · exact .inl (congrArg _ (engineFill_oracles h))
  · exact .inl (congrArg _ (engineDrain_oracles h))

/-- A step that leaves the stream consumes the empty chunk. -/
theorem consumes_nothing {p : List Byte → Prop} (h : t.oracles.fecStream = s.oracles.fecStream) :
    ∃ chunk, s.oracles.fecStream = chunk ++ t.oracles.fecStream ∧ (chunk ≠ [] → p chunk) :=
  ⟨[], h.symm, fun hne => absurd rfl hne⟩

/-- Settles O58: of the agents only the engine in `PULL` takes from the stream, and what it takes is the buffer it binds. -/
theorem streamConsumedInOrder : Obligations.StreamConsumedInOrder := by
  intro s t h
  rcases step_cases h with ⟨-, rfl⟩ | ⟨hturn, h⟩ | ⟨-, h⟩
  · exact consumes_nothing rfl
  · rcases engineStep_fecStream h with hsame | ⟨hpull, hstream, hfill, hcur, hbound⟩
    · exact consumes_nothing hsame
    · exact ⟨t.buf, hstream, fun _ => ⟨hturn, hpull, hfill, rfl, hcur, hbound⟩⟩
  · have hsame := hostStep_fecStream h
    exact consumes_nothing hsame

end Sys2Proof.Machine
end

section
/-! The decoder and the encoder (30_encoding.md R81 to R89): a transaction decodes to a command exactly when it carries that
command's own command word and the operands the command reads. -/

namespace Sys2Proof.Machine

/-- An encoded command carries a legal command word of its row (30_encoding.md R81, R84). -/
theorem encodedWord : ∀ i : Instr, Laws.EncodedWord.Statement i
  | .bfInit cap => Laws.EncodedWord.bfInit cap
  | .bfWrite v o w => Laws.EncodedWord.bfWrite v o w
  | .bfRead o w => Laws.EncodedWord.bfRead o w
  | .bcRebind payload => Laws.EncodedWord.bcRebind payload
  | .bcRead w => Laws.EncodedWord.bcRead w
  | .bcExhausted => Laws.EncodedWord.bcExhausted
  | .encConfig ecc bps bpc => Laws.EncodedWord.encConfig ecc bps bpc
  | .encFrame cap canvas => Laws.EncodedWord.encFrame cap canvas
  | .stateRead r => Laws.EncodedWord.stateRead r

/-- The width of a transaction that carries a row's command word. -/
@[simp] theorem width_mk_commandWord (op : Op) (w : BitVec 6) (a b c : Word) (p : List Byte) :
    Transaction.width ⟨commandWord op w, a, b, c, p⟩ = w :=
  commandWord_width op w

/-- The row `op` reads the command word of `c`: its opcode, no reserved bit, and a width only if the row has one
(30_encoding.md R81, R84). -/
def ReadsWord (op : Op) (c : Transaction) : Prop :=
  c.opc = op.code ∧ c.rsv = 0#18 ∧ (op.takesWidth = true ∨ c.width = 0#6)

/-- The row that reads a word decodes the transaction. -/
theorem ReadsWord.decode_eq {op : Op} {c : Transaction} (h : ReadsWord op c) : decode c = decodeOperands op c := by
  obtain ⟨hopc, hrsv, hwidth⟩ := h
  exact decode_of_op c op hopc hrsv hwidth

/-- A row reads the words of its commands. -/
theorem readsWord_encode (i : Instr) : ReadsWord i.op (encode i) := by
  obtain ⟨hopc, hrsv, hwidth⟩ := encodedWord i
  exact ⟨hopc, hrsv, or_iff_not_imp_left.2 fun hn => hwidth (Bool.eq_false_of_not_eq_true hn)⟩

/-- A row reads only its own command words. -/
theorem ReadsWord.cmd_eq {op : Op} {c : Transaction} (h : ReadsWord op c) : c.cmd = commandWord op c.width := by
  obtain ⟨hopc, hrsv, -⟩ := h
  exact eq_commandWord c.cmd op hopc hrsv

/-- `W` is read from the command word alone (30_encoding.md R81). -/
theorem width_eq_of_cmd_eq {c d : Transaction} (h : c.cmd = d.cmd) : c.width = d.width := by
  simp only [Transaction.width, h]

/-- Whether a row reads a transaction depends on the command word alone (30_encoding.md R81). -/
theorem ReadsWord.of_cmd_eq {op : Op} {c d : Transaction} (h : c.cmd = d.cmd) (hc : ReadsWord op c) :
    ReadsWord op d := by
  simpa only [ReadsWord, Transaction.opc, Transaction.rsv, Transaction.width, h] using hc

theorem OperandsAgree.refl (i : Instr) (a : Transaction) : OperandsAgree i a a := by
  cases i <;> simp only [OperandsAgree, and_self]

theorem OperandsAgree.trans {i : Instr} {a b c : Transaction} (hab : OperandsAgree i a b)
    (hbc : OperandsAgree i b c) : OperandsAgree i a c := by
  cases i <;> simp_all [OperandsAgree]

/-- The row of `i` reads `i` from a transaction with the command word of `i` exactly when the operands are those of `i`. -/
theorem decodeOperands_eq_instr_iff {c : Transaction} {i : Instr} (hcmd : (encode i).cmd = c.cmd) :
    decodeOperands i.op c = .instr i ↔ i.WellFormed ∧ OperandsAgree i (encode i) c := by
  have hwidth := width_eq_of_cmd_eq hcmd
  cases i
  case bcRebind payload =>
    simp only [decodeOperands, Instr.op, OperandsAgree, encode]
    constructor
    · intro h
      split at h
      case isTrue hlen =>
        obtain rfl := Instr.bcRebind.inj (Decoded.instr.inj h)
        exact ⟨hlen.trans_lt c.op0.isLt, by rw [hlen, BitVec.ofNat_toNat, BitVec.setWidth_eq], rfl⟩
      case isFalse => cases h
    · rintro ⟨hwf, hop0, rfl⟩
      exact if_pos (by rw [← hop0, BitVec.toNat_ofNat, Nat.mod_eq_of_lt hwf])
  all_goals simp [decodeOperands, Instr.op, OperandsAgree, encode, ← hwidth, eq_comm]

/-- The command a row reads from a legal word encodes back to that word (30_encoding.md R84). -/
theorem encode_cmd_of_decodeOperands {op : Op} {c : Transaction} {i : Instr} (hreads : ReadsWord op c)
    (h : decodeOperands op c = .instr i) : (encode i).cmd = c.cmd := by
  rw [hreads.cmd_eq]
  obtain ⟨-, -, hwidth⟩ := hreads
  cases op <;> simp only [decodeOperands, Op.takesWidth, Bool.false_eq_true, false_or] at h hwidth
  case bcRebind =>
    split at h
    · cases h; rw [hwidth]; rfl
    · cases h
  all_goals cases h; simp [encode, *]

/-- A transaction decodes to `i` exactly when `i` is well formed and the transaction has the command word of `i` and, in
the operand words and payload `i` reads, the values of `i` (30_encoding.md R81, R82, R84). -/
theorem decode_eq_instr_iff (c : Transaction) (i : Instr) :
    decode c = .instr i ↔ i.WellFormed ∧ (encode i).cmd = c.cmd ∧ OperandsAgree i (encode i) c := by
  constructor
  · intro h
    obtain ⟨op, hopc, hrsv, hwidth, hops⟩ := decode_instr h
    obtain rfl := decodeOperands_op hops
    have hcmd := encode_cmd_of_decodeOperands ⟨hopc, hrsv, hwidth⟩ hops
    obtain ⟨hwf, hagree⟩ := (decodeOperands_eq_instr_iff hcmd).1 hops
    exact ⟨hwf, hcmd, hagree⟩
  · rintro ⟨hwf, hcmd, hagree⟩
    rw [((readsWord_encode i).of_cmd_eq hcmd).decode_eq]
    exact (decodeOperands_eq_instr_iff hcmd).2 ⟨hwf, hagree⟩

/-- Settles O2: the encoding of a command has its own command word and its own operands. -/
theorem decodeEncodeRoundTrip : Obligations.DecodeEncodeRoundTrip :=
  fun i hwf => (decode_eq_instr_iff _ i).2 ⟨hwf, rfl, .refl i _⟩

/-- Settles O3: what `decode_eq_instr_iff` says of a transaction that decodes. -/
theorem decodedCommandEncodesBack : Obligations.DecodedCommandEncodesBack :=
  fun c i h => (decode_eq_instr_iff c i).1 h

/-- Settles O4: the two transactions have the same command word and agree on all the command reads. -/
theorem unusedOperandsIgnored : Obligations.UnusedOperandsIgnored := by
  intro c d i h hcmd hagree
  obtain ⟨hwf, hword, hops⟩ := (decode_eq_instr_iff c i).1 h
  exact (decode_eq_instr_iff d i).2 ⟨hwf, hword.trans hcmd.symm, hops.trans hagree⟩

/-- Settles O1: the decoder is evaluated on the words of 30_encoding.md R91. -/
theorem specWordsDecode : Obligations.SpecWordsDecode := by
  unfold Obligations.SpecWordsDecode
  decide

end Sys2Proof.Machine
end

section
/-! The illegal command words (30_encoding.md R87): the words no row of the opcode map reads, and the step that takes one. -/

namespace Sys2Proof.Machine

variable {s : State}

/-- The nine opcodes of 30_encoding.md R84 are those of the rows. -/
theorem mem_opcodes_iff (c : BitVec 8) :
    c ∈ [0x01#8, 0x02#8, 0x03#8, 0x11#8, 0x12#8, 0x13#8, 0x21#8, 0x22#8, 0x31#8] ↔ ∃ op : Op, c = op.code := by
  change c ∈ Op.all.map Op.code ↔ _
  rw [List.mem_map]
  exact ⟨fun ⟨op, _, h⟩ => ⟨op, h.symm⟩, fun ⟨op, h⟩ => ⟨op, by cases op <;> decide, h.symm⟩⟩

/-- The six opcodes of 30_encoding.md R87 (c) are those of the rows without a width. -/
theorem mem_widthless_opcodes_iff (op : Op) :
    op.code ∈ [0x01#8, 0x11#8, 0x13#8, 0x21#8, 0x22#8, 0x31#8] ↔ op.takesWidth = false := by
  cases op <;> decide

/-- A word is illegal exactly when no row reads it (30_encoding.md R87). -/
theorem illegalWord_iff (c : Transaction) : IllegalWord c ↔ ∀ op, ¬ ReadsWord op c := by
  simp only [IllegalWord, mem_opcodes_iff]
  constructor
  · rintro h op ⟨hopc, hrsv, hwidth⟩
    rcases h with hnone | hres | ⟨hmem, hw⟩
    · exact hnone ⟨op, hopc⟩
    · exact hres hrsv
    · rw [hopc, mem_widthless_opcodes_iff] at hmem
      rcases hwidth with htakes | hzero
      · rw [hmem] at htakes; cases htakes
      · exact hw hzero
  · intro h
    by_contra hlegal
    simp only [not_or, not_not, not_and] at hlegal
    obtain ⟨⟨op, hopc⟩, hrsv, hwidth⟩ := hlegal
    rw [hopc, mem_widthless_opcodes_iff] at hwidth
    exact h op ⟨hopc, hrsv, or_iff_not_imp_left.2 fun hn => hwidth (Bool.eq_false_of_not_eq_true hn)⟩

/-- The operands of a row are rejected for the payload length alone. -/
theorem decodeOperands_rejected {op : Op} {c : Transaction} {e : DecodeError}
    (h : decodeOperands op c = .rejected e) : e = .payloadLength := by
  cases op <;> simp only [decodeOperands] at h
  case bcRebind => split at h <;> cases h; rfl
  all_goals cases h

/-- A word no row reads is rejected as illegal (30_encoding.md R87). -/
theorem decode_of_no_row {c : Transaction} (h : ∀ op, ¬ ReadsWord op c) :
    ∃ e, decode c = .rejected e ∧ e ≠ .payloadLength := by
  unfold decode
  split
  case h_1 => exact ⟨_, rfl, nofun⟩
  case h_2 op hop =>
    have hopc := (Op.ofCode_eq_some _ _).1 hop
    split
    case isTrue => exact ⟨_, rfl, nofun⟩
    case isFalse hrsv =>
      split
      case isTrue => exact ⟨_, rfl, nofun⟩
      case isFalse hwidth =>
        refine absurd ⟨hopc, not_not.1 hrsv, ?_⟩ (h op)
        simpa [or_iff_not_imp_left] using hwidth

/-- The illegal words are those the decoder rejects, whatever the operands and the payload (30_encoding.md R87). -/
theorem illegalWord_iff_decode (c : Transaction) :
    IllegalWord c ↔ ∃ e, decode c = .rejected e ∧ e ≠ .payloadLength := by
  rw [illegalWord_iff]
  constructor
  · exact decode_of_no_row
  · rintro ⟨e, hd, hne⟩ op hreads
    rw [hreads.decode_eq] at hd
    exact hne (decodeOperands_rejected hd)

/-- The fault word of an illegal command (10_state.md R34): V, then the opcode, then cause 1. -/
theorem faultWord_illegalCmd (opc : BitVec 8) :
    faultWord false opc .illegalCmd = 0x80000001#32 ||| (opc.zeroExtend 32 <<< 8) := by
  have hword : 0x80000001#32 = faultWord false 0#8 .illegalCmd := by decide
  rw [hword]
  refine BitVec.eq_of_getLsbD_eq fun i hi => ?_
  simp only [faultWord, BitVec.getLsbD_or, BitVec.getLsbD_append, BitVec.getLsbD_shiftLeft,
    BitVec.truncate_eq_setWidth, BitVec.getLsbD_setWidth]
  have hi8 : i - 8 < 32 := by omega
  by_cases hcause : i < 8
  · simp [hcause]
  · by_cases hopc : i - 8 < 8
    · simp [hcause, hopc, hi, hi8]
    · simp [hcause, hopc, BitVec.getLsbD_of_ge opc (i - 8) (by omega)]

/-- An illegal command the block takes at the host's turn leaves the port and records `ILLEGAL_CMD` with its word
(30_encoding.md R87). -/
theorem step_illegal {c : Transaction} {rest : List Transaction} (hturn : s.turn = .host) (hp : s.port = c :: rest)
    (hfree : s.halted = false) (ha : s.accepts c = true) (hill : IllegalWord c) :
    step s = .next { s.nextTurn with
      port := rest, fault := faultWord false c.opc .illegalCmd, faultInfo := c.cmd } := by
  obtain ⟨e, hd, hne⟩ := (illegalWord_iff_decode c).1 hill
  rw [step_host hturn, hostStep_illegal (s := s.nextTurn) hp ha hd hne,
    State.raiseFault_fresh (s := s.nextTurn.popPort) hfree]
  simp [State.popPort, hp]

/-- Settles O5: a word is illegal when no row reads it, no row has opcode 0x00, and the idle block accepts the command. -/
theorem illegalCommandFaults : Obligations.IllegalCommandFaults := by
  refine ⟨illegalWord_iff_decode, fun c hopc => .inl (by rw [hopc]; decide), ?_⟩
  intro s c rest hturn hp hfree hidle hill
  rw [step_illegal hturn hp hfree ((accepts_iff c s).2 (.inr ⟨hfree, hidle⟩)) hill, faultWord_illegalCmd]

/-- The host's step with an accepted command that decodes: the command is executed and, unless it waits for the source, leaves
the port (30_encoding.md R80). -/
theorem step_instr {c : Transaction} {rest : List Transaction} {i : Instr} {t : State} (hturn : s.turn = .host)
    (hp : s.port = c :: rest) (ha : s.accepts c = true) (hd : decode c = .instr i) (he : exec i s.nextTurn = .next t) :
    step s = .next (if awaitsSource i s.nextTurn then t else t.popPort) := by
  rw [step_host hturn, hostStep_instr (s := s.nextTurn) hp ha hd he]

/-- Settles O6: the command is accepted, and its execution answers a next state; an illegal word of opcode 0x31 is accepted
too. -/
theorem stepRunsDecodedCommand : Obligations.StepRunsDecodedCommand := by
  intro s c rest hturn hp
  constructor
  · intro i hacc hd
    obtain ⟨t, he⟩ := exec_next i s.nextTurn
    rw [he]
    exact step_instr hturn hp ((accepts_iff c s).2 hacc) hd he
  · intro hopc hfree hill
    rw [step_illegal hturn hp hfree ((accepts_iff c s).2 (.inl hopc)) hill, hopc]
    rfl

end Sys2Proof.Machine
end

section
/-! The model stops on a transaction that is none (30_encoding.md R83) and, under the invariant, nowhere else: every access of
the engine is in the range of its primitive (42_engine.md R202). -/

namespace Sys2Proof.Machine

variable {s : State}

/-- With a legal configuration the interleaver reads 1 to 32 bits (42_engine.md R184). -/
theorem State.ConfigLegal.readWidth_ok (h : s.ConfigLegal) : widthOk s.readWidth = true := by
  obtain ⟨-, hbps, hbpc, hsum⟩ := h
  rw [widthOk_iff]
  unfold State.readWidth
  split <;> omega

/-- With a legal configuration the interleaver writes 1 to `BPO` bits (42_engine.md R185). -/
theorem State.ConfigLegal.writeWidth_range (h : s.ConfigLegal) : 1 ≤ s.writeWidth ∧ s.writeWidth ≤ s.bpo := by
  obtain ⟨-, hbps, hbpc, -⟩ := h
  unfold State.writeWidth State.bpo
  split <;> omega

theorem State.ConfigLegal.bpo_le (h : s.ConfigLegal) : s.bpo ≤ 32 := by
  obtain ⟨-, -, -, hsum⟩ := h
  exact hsum

/-- An access of at most `BPO` bits at a stripe boundary below the stripe limit is inside the field (42_engine.md R202). -/
theorem State.fieldDefined_at_stripe {p w : Nat} (hbpo : s.bpo ≤ 32) (hpos : 1 ≤ w) (hle : w ≤ s.bpo)
    (haligned : p % s.bpo = 0) (hlt : p < s.stripeLimit) : s.fieldDefined p w = true := by
  obtain ⟨hnext, -⟩ := State.next_stripe haligned hlt
  have hcap := s.stripeLimit_le_bfCap
  simp only [State.fieldDefined, Bool.and_eq_true, widthOk_iff, decide_eq_true_eq]
  omega

/-- Under the invariant a `FILL` step has a bound buffer, a legal width and a place inside the field (42_engine.md R202). -/
theorem State.Inv.engineFill_next (h : s.Inv) (he : s.eng = .fill) : ∃ t, engineFill s = .next t := by
  obtain ⟨hrun, hfilling, hbound⟩ := (frameLegal_of_fill he).1 h.frame
  obtain ⟨hpos, hle⟩ := h.config.writeWidth_range
  have hdef := State.fieldDefined_at_stripe h.config.bpo_le hpos hle hrun.posAligned hfilling.posLt
  have hread : (s.bcBound && widthOk s.readWidth) = true := Bool.and_eq_true_iff.2 ⟨hbound, h.config.readWidth_ok⟩
  simp only [engineFill, hread, hdef, Bool.true_eq_false, if_false, if_true]
  split
  case isTrue => exact ⟨_, rfl⟩
  case isFalse => split <;> exact ⟨_, rfl⟩

/-- Under the invariant a `DRAIN` step reads inside the field (42_engine.md R202). -/
theorem State.Inv.engineDrain_next (h : s.Inv) (he : s.eng = .drain) : ∃ t, engineDrain s = .next t := by
  obtain ⟨hrun, -⟩ := (frameLegal_of_drain he).1 h.frame
  have hbpo := h.config.two_le_bpo
  unfold engineDrain
  split
  case isTrue hlt =>
    rw [if_pos (State.fieldDefined_at_stripe h.config.bpo_le (by omega) le_rfl hrun.dposAligned hlt)]
    exact ⟨_, rfl⟩
  case isFalse => exact ⟨_, rfl⟩

/-- Under the invariant the engine's turn never stops the model (42_engine.md R202). -/
theorem State.Inv.engineStep_next (h : s.Inv) : ∃ t, engineStep s = .next t := by
  unfold engineStep
  split
  case isTrue => exact ⟨_, rfl⟩
  case isFalse =>
    split
    case h_1 => exact ⟨_, rfl⟩
    case h_2 => exact ⟨_, rfl⟩
    case h_3 he => exact h.engineFill_next he
    case h_4 he => exact h.engineDrain_next he

/-- The host's turn answers a next state, or the command at the head of the port is refused for its payload. -/
theorem hostStep_next_or_refused (s : State) :
    (∃ t, hostStep s = .next t) ∨
    ∃ c rest, s.port = c :: rest ∧ decode c = .rejected .payloadLength ∧ hostStep s = .refused .payloadLength := by
  cases hp : s.port with
  | nil => exact .inl ⟨s, by rw [hostStep, hp]⟩
  | cons c rest =>
    cases ha : s.accepts c with
    | false => exact .inl ⟨_, hostStep_not_accepted hp ha⟩
    | true =>
      cases hd : decode c with
      | instr i =>
        obtain ⟨t, he⟩ := exec_next i s
        exact .inl ⟨_, hostStep_instr hp ha hd he⟩
      | rejected e =>
        by_cases hlen : e = .payloadLength
        · subst hlen
          exact .inr ⟨c, rest, rfl, hd, by simp only [hostStep, hp, ha, if_true, runCommand, hd]⟩
        · exact .inl ⟨_, hostStep_illegal hp ha hd hlen⟩

/-- Under the invariant a step answers a next state, or is the host's and refuses the command at the head of the port for its
payload. -/
theorem State.Inv.step_next_or_refused (h : s.Inv) :
    (∃ t, step s = .next t) ∨
    ∃ c rest, s.port = c :: rest ∧ decode c = .rejected .payloadLength ∧ step s = .refused .payloadLength := by
  cases hturn : s.turn with
  | reset => exact .inl ⟨_, step_reset hturn⟩
  | engine => rw [step_engine hturn]; exact .inl h.nextTurn.engineStep_next
  | host => rw [step_host hturn]; exact hostStep_next_or_refused s.nextTurn

/-- Settles O17: the one stop is a refusal for the payload, which only a `BC_REBIND` meets. -/
theorem invariantStepStopsOnlyOnBadPayload : Obligations.InvariantStepStopsOnlyOnBadPayload := by
  intro s h
  rcases h.step_next_or_refused with ⟨t, ht⟩ | ⟨c, rest, hp, hd, hr⟩
  · rw [ht]; exact ⟨nofun, nofun⟩
  · rw [hr]
    refine ⟨nofun, fun r e => ?_⟩
    obtain ⟨hopc, hlen⟩ := decode_payloadLength hd
    exact ⟨(Host.Outcome.refused.inj e).symm, c, rest, hp, hopc, hlen⟩

end Sys2Proof.Machine
end

section
/-! The BitField commands past their checks (40_bitfield.md R101, R102, R104 to R108), and the faults of the checks (R103,
R104). -/

namespace Sys2Proof.Machine

variable {s t : State}

/-! ### A read after a write of `FIELD` -/

/-- A `w`-bit write depends on the low `w` bits of its value alone (40_bitfield.md R108). -/
theorem Memory.writeBits_congr (m : Memory) (o : Nat) {v v' w : Nat} (h : ∀ j < w, v.testBit j = v'.testBit j) :
    m.writeBits o v w = m.writeBits o v' w := by
  induction w generalizing m o with
  | zero => rfl
  | succ w ih =>
    simp only [Memory.writeBits]
    rw [h w (Nat.lt_succ_self w), ih _ _ fun j hj => h j (Nat.lt_succ_of_lt hj)]

/-- A `w`-bit write stores `v mod 2^w` (40_bitfield.md R102, R108). -/
theorem Memory.writeBits_mod_two_pow (m : Memory) (o v w : Nat) : m.writeBits o (v % 2 ^ w) w = m.writeBits o v w :=
  Memory.writeBits_congr m o fun j hj => by rw [Nat.testBit_mod_two_pow, decide_eq_true hj, Bool.true_and]

/-- A `w`-bit read where a `w`-bit write has been gives `v mod 2^w` (40_bitfield.md R107). -/
theorem Memory.readBits_writeBits_same {m : Memory} (h : Memory.wf m) (o v w : Nat) :
    (m.writeBits o v w).readBits o w = v % 2 ^ w := by
  refine Nat.eq_of_testBit_eq fun i => ?_
  rw [Nat.testBit_mod_two_pow]
  by_cases hi : i < w
  · have hj : w - 1 - i < w := by omega
    have hbit := (Memory.testBit_readBits (m.writeBits o v w) o hj).trans (Memory.read_writeBits_inside h o v hj)
    rw [show w - 1 - (w - 1 - i) = i by omega] at hbit
    rw [hbit, decide_eq_true hi, Bool.true_and]
  · have hlt : (m.writeBits o v w).readBits o w < 2 ^ i :=
      (Memory.readBits_lt _ o w).trans_le (Nat.pow_le_pow_right (by decide) (Nat.le_of_not_lt hi))
    rw [Nat.testBit_lt_two_pow hlt, decide_eq_false hi, Bool.false_and]

/-- The word `trunc_w(v)` is the number `v mod 2^w` (00_scope.md R8). -/
theorem toNat_trunc (v : Word) (w : Nat) : (BitVec.ofNat 32 (v.toNat % 2 ^ w)).toNat = v.toNat % 2 ^ w := by
  rw [BitVec.toNat_ofNat, Nat.mod_eq_of_lt ((Nat.mod_le _ _).trans_lt v.isLt)]

theorem State.fieldWrite_trunc (o w : Nat) (v : Word) (s : State) :
    s.fieldWrite o w (BitVec.ofNat 32 (v.toNat % 2 ^ w)) = s.fieldWrite o w v := by
  simp only [State.fieldWrite, toNat_trunc, Memory.writeBits_mod_two_pow]

theorem State.fieldRead_fieldWrite_same (hwf : Memory.wf s.field) (o w : Nat) (v : Word) :
    (s.fieldWrite o w v).fieldRead o w = BitVec.ofNat 32 (v.toNat % 2 ^ w) := by
  rw [State.fieldRead, State.fieldWrite, Memory.readBits_writeBits_same hwf]

/-- Bit `w-1-j` of a field read is the bit at offset `o+j` (40_bitfield.md R101). -/
theorem State.fieldRead_getLsbD (s : State) (o : Nat) {w j : Nat} (hw : w ≤ 32) (hj : j < w) :
    (s.fieldRead o w).getLsbD (w - 1 - j) = s.field.read (o + j) := by
  rw [← BitVec.testBit_toNat, s.fieldRead_toNat o hw, Memory.testBit_readBits _ _ hj]

/-! ### The access inside the BitField space -/

section
variable {o : Word} {w : BitVec 6} (hvalid : s.bfValid = true) (hpos : 1 ≤ w.toNat) (hmax : w.toNat ≤ 32)
  (hcap : o.toNat + w.toNat ≤ s.bfCap.toNat)
include hvalid hpos hmax hcap

theorem bfCheck_inside : bfCheck o.toNat w.toNat s = none :=
  (bfCheck_eq_none _ _ s).2 ⟨hvalid, ⟨hpos, hmax⟩, hcap⟩

theorem exec_bfWrite_inside (v : Word) : exec (.bfWrite v o w) s = .next (s.fieldWrite o.toNat w.toNat v) :=
  exec_of_commandCheck (bfCheck_inside hvalid hpos hmax hcap)

theorem exec_bfRead_inside : exec (.bfRead o w) s = .next (s.setRes (s.fieldRead o.toNat w.toNat)) :=
  exec_of_commandCheck (bfCheck_inside hvalid hpos hmax hcap)

/-- `BF_WRITE` then `BF_READ` at the same place: `RES` is `trunc_w(v)`, the bits outside are unchanged
(40_bitfield.md R107, R108). -/
theorem exec_bfWrite_then_bfRead (hwf : Memory.wf s.field) (v : Word) :
    ∃ t u, exec (.bfWrite v o w) s = .next t ∧ exec (.bfRead o w) t = .next u ∧
      u.res = BitVec.ofNat 32 (v.toNat % 2 ^ w.toNat) ∧
      ∀ i, i < o.toNat ∨ o.toNat + w.toNat ≤ i → u.field.read i = s.field.read i := by
  have hread := exec_bfRead_inside (s := s.fieldWrite o.toNat w.toNat v) hvalid hpos hmax hcap
  refine ⟨_, _, exec_bfWrite_inside hvalid hpos hmax hcap v, hread, ?_, fun i hi => ?_⟩
  · exact State.fieldRead_fieldWrite_same hwf _ _ v
  · exact Memory.read_writeBits_outside hi _ _

end

/-- Settles O19: the check passes, and the effect is one `w`-bit write of `FIELD`. -/
theorem bfWriteStoresBits : Obligations.BfWriteStoresBits := by
  intro v o w s hwf hvalid hpos hmax hcap
  refine ⟨_, exec_bfWrite_inside hvalid hpos hmax hcap v, fun j hj => ?_, fun i hi => ?_, rfl⟩
  · rw [← BitVec.testBit_toNat]
    exact Memory.read_writeBits_inside hwf _ _ hj
  · exact Memory.read_writeBits_outside hi _ _

/-- Settles O20: the check passes, and `RES` is the number the `w` bits make. -/
theorem bfReadReturnsBits : Obligations.BfReadReturnsBits := by
  intro o w s hvalid hpos hmax hcap
  refine ⟨_, exec_bfRead_inside hvalid hpos hmax hcap, fun j hj => ?_, ?_, rfl⟩
  · exact s.fieldRead_getLsbD _ hmax hj
  · exact (s.fieldRead_toNat _ hmax).trans_lt (Memory.readBits_lt _ _ _)

/-- Settles O22: the read gives `trunc_w(v)`, which is `v` for a `w`-bit value. -/
theorem bfWriteThenReadRoundTrip : Obligations.BfWriteThenReadRoundTrip := by
  intro v o w s hwf hvalid hpos hmax hcap hv
  obtain ⟨t, u, hwrite, hread, hres, houtside⟩ := exec_bfWrite_then_bfRead hvalid hpos hmax hcap hwf v
  refine ⟨t, u, hwrite, hread, ?_, houtside⟩
  rw [hres, Nat.mod_eq_of_lt hv, BitVec.ofNat_toNat, BitVec.setWidth_eq]

/-- Settles O23: both writes have the same check, which does not read the value, and the same effect. -/
theorem bfWriteTruncates : Obligations.BfWriteTruncates := by
  intro v o w s
  constructor
  · simp only [exec_eq_checked, commandCheck, commandEffect, Instr.op, State.fieldWrite_trunc]
  · intro hwf hvalid hpos hmax hcap
    obtain ⟨t, u, hwrite, hread, hres, -⟩ := exec_bfWrite_then_bfRead hvalid hpos hmax hcap hwf v
    exact ⟨t, u, hwrite, hread, hres⟩

/-! ### The checks that fail -/

/-- A command whose check fails in a block with no fault yet records the fault and changes nothing else
(60_exceptions.md R231). -/
theorem exec_of_commandCheck_fails {i : Instr} {k : Cause} {info word : Word} (hfree : s.halted = false)
    (hcheck : commandCheck i s = some ⟨k, info⟩) (hword : faultWord false i.op.code k = word) :
    exec i s = .next { s with fault := word, faultInfo := info } := by
  rw [exec_eq_checked, hcheck, checked, State.raiseFault_fresh hfree, hword]

/-- What `BfCheck` raises without a BitField (40_bitfield.md R103). -/
theorem bfCheck_of_absent (hvalid : s.bfValid = false) (o w : Nat) : bfCheck o w s = some ⟨.bfUninit, 0#32⟩ :=
  if_pos hvalid

/-- What `BfCheck` raises for a width outside `1 .. 32`, wherever the access is (40_bitfield.md R103). -/
theorem bfCheck_of_bad_width (hvalid : s.bfValid = true) {w : BitVec 6} (hw : w.toNat < 1 ∨ 32 < w.toNat) (o : Nat) :
    bfCheck o w.toNat s = some ⟨.bfWidth, w.zeroExtend 32⟩ := by
  have hbad : widthOk w.toNat = false := by rw [← Bool.not_eq_true, widthOk_iff]; omega
  simp only [bfCheck, hvalid, hbad, Bool.true_eq_false, if_false, if_true, BitVec.ofNat_toNat]

/-- What `BfCheck` raises for an access of legal width past `BF_CAP` (40_bitfield.md R103). -/
theorem bfCheck_of_out_of_bounds (hvalid : s.bfValid = true) {o : Word} {w : Nat} (hpos : 1 ≤ w) (hmax : w ≤ 32)
    (hout : s.bfCap.toNat < o.toNat + w) : bfCheck o.toNat w s = some ⟨.bfBounds, o⟩ := by
  have hok : widthOk w = true := (widthOk_iff w).2 ⟨hpos, hmax⟩
  simp only [bfCheck, hvalid, hok, hout, Bool.true_eq_false, if_false, if_true, BitVec.ofNat_toNat, BitVec.setWidth_eq]

/-- `BF_WRITE` and `BF_READ` raise what `BfCheck` raises, each under its own opcode (40_bitfield.md R105, R106). -/
theorem exec_bfAccess_fails {o : Word} {w : BitVec 6} {k : Cause} {info writeWord readWord : Word}
    (hfree : s.halted = false) (hcheck : bfCheck o.toNat w.toNat s = some ⟨k, info⟩)
    (hwrite : faultWord false 0x02#8 k = writeWord) (hread : faultWord false 0x03#8 k = readWord) (v : Word) :
    exec (.bfWrite v o w) s = .next { s with fault := writeWord, faultInfo := info } ∧
    exec (.bfRead o w) s = .next { s with fault := readWord, faultInfo := info } :=
  ⟨exec_of_commandCheck_fails hfree hcheck hwrite, exec_of_commandCheck_fails hfree hcheck hread⟩

/-- Settles O21: in each of the three cases `BfCheck` raises the cause of that case, for both commands. -/
theorem bfCheckFaultsInOrder : Obligations.BfCheckFaultsInOrder := by
  intro v o w s hfree
  refine ⟨fun hvalid => ?_, fun hvalid hw => ?_, fun hvalid hpos hmax hout => ?_⟩
  · exact exec_bfAccess_fails hfree (bfCheck_of_absent hvalid _ _) (by decide) (by decide) v
  · exact exec_bfAccess_fails hfree (bfCheck_of_bad_width hvalid hw _) (by decide) (by decide) v
  · exact exec_bfAccess_fails hfree (bfCheck_of_out_of_bounds hvalid hpos hmax hout) (by decide) (by decide) v

/-- What `BF_INIT` raises for a capacity outside `1 .. MAX_CAP_BITS` (40_bitfield.md R104). -/
theorem initCheck_of_bad_capacity {cap : Word} (h : cap = 0#32 ∨ s.params.maxCapBits < cap.toNat) :
    initCheck cap s = some ⟨.badCapacity, cap⟩ :=
  if_pos (h.imp_left fun hzero => by rw [hzero]; rfl)

/-- Settles O18: the check passes exactly for a legal capacity, and a field with no listed bit is all zeros. -/
theorem bfInitCreatesZeroField : Obligations.BfInitCreatesZeroField := by
  refine fun cap s => ⟨fun hpos hmax => ⟨?_, fun _ => rfl⟩, fun hfree hbad => ?_⟩
  · exact exec_of_commandCheck ((initCheck_eq_none cap s).2 ⟨hpos, hmax⟩)
  · have hword : faultWord false 0x01#8 .badCapacity = 0x80000108#32 := by decide
    exact exec_of_commandCheck_fails hfree (initCheck_of_bad_capacity hbad) hword

end Sys2Proof.Machine
end

section
/-! The frame of the commands that store to no bit of the BitField (20_memory.md R70): what each effect leaves alone, then what
the command leaves alone, whether its check passes or fails. -/

namespace Sys2Proof.Machine

variable {s t : State} {i : Instr}

/-- The commands that store to no bit of the BitField (20_memory.md R70). -/
def StoresNoBit (i : Instr) : Prop :=
  match i with
  | .bfInit _ | .bfWrite _ _ _ | .encFrame _ _ => False
  | .bfRead _ _ | .bcRebind _ | .bcRead _ | .bcExhausted | .encConfig _ _ _ | .stateRead _ => True

/-- The effect of a command that stores no bit is on neither the BitField nor the engine nor anything outside the block. -/
theorem commandEffect_of_storesNoBit (hi : StoresNoBit i) (s : State) :
    SameField s (commandEffect i s) ∧ SameEngine s (commandEffect i s) ∧ SameOutside s (commandEffect i s) := by
  cases i
  case bfInit | bfWrite | encFrame => exact hi.elim
  case bcRead w => simp [commandEffect, SameField, SameEngine, SameOutside]
  case stateRead r =>
    simp only [commandEffect]
    split <;> exact ⟨⟨rfl, rfl, fun _ => rfl⟩, ⟨rfl, rfl, rfl, rfl, rfl, rfl⟩, ⟨rfl, rfl, rfl, rfl⟩⟩
  all_goals exact ⟨⟨rfl, rfl, fun _ => rfl⟩, ⟨rfl, rfl, rfl, rfl, rfl, rfl⟩, ⟨rfl, rfl, rfl, rfl⟩⟩

/-- Of the commands only `BC_REBIND`, `BC_READ` and `ENC_FRAME` write the BitCursor (10_state.md R27). -/
theorem commandEffect_sameCursor (i : Instr) (s : State) :
    SameCursor s (commandEffect i s) ∨
    (∃ payload, i = .bcRebind payload) ∨ (∃ w, i = .bcRead w) ∨ ∃ cap canvas, i = .encFrame cap canvas := by
  cases i
  case bcRebind payload => exact .inr (.inl ⟨payload, rfl⟩)
  case bcRead w => exact .inr (.inr (.inl ⟨w, rfl⟩))
  case encFrame cap canvas => exact .inr (.inr (.inr ⟨cap, canvas, rfl⟩))
  case stateRead r => left; simp only [commandEffect]; split <;> exact ⟨rfl, rfl, rfl, rfl⟩
  all_goals exact .inl ⟨rfl, rfl, rfl, rfl⟩

/-- A command that stores no bit leaves the BitField, the engine and what is outside the block (20_memory.md R70). -/
theorem exec_of_storesNoBit (h : exec i s = .next t) (hi : StoresNoBit i) :
    SameField s t ∧ SameEngine s t ∧ SameOutside s t := by
  rcases exec_cases h with ⟨-, f, n, rfl⟩ | ⟨-, rfl⟩
  · obtain ⟨-, -, heng, -, -, houtside, -⟩ := same_outside_field_and_fault s s.bfValid s.bfCap s.field f n
    exact ⟨⟨rfl, rfl, fun _ => rfl⟩, heng, houtside⟩
  · exact commandEffect_of_storesNoBit hi s

/-- A command whose check fails leaves the configuration, the BitCursor, `RES` and `FLAG` (60_exceptions.md R231). -/
theorem exec_same_of_check_fails (h : exec i s = .next t) (hfail : commandCheck i s ≠ none) :
    SameConfig s t ∧ SameCursor s t ∧ SameRes s t ∧ SameFlag s t := by
  rcases exec_cases h with ⟨-, f, n, rfl⟩ | ⟨hpass, -⟩
  · obtain ⟨hconfig, hcursor, -, hres, hflag, -⟩ :=
      same_outside_field_and_fault s s.bfValid s.bfCap s.field f n
    exact ⟨hconfig, hcursor, hres, hflag⟩
  · exact absurd hpass hfail

/-- A command has its effect, or leaves the configuration, the BitCursor, `RES` and `FLAG`. -/
theorem exec_effect_or_same (h : exec i s = .next t) :
    t = commandEffect i s ∨ (SameConfig s t ∧ SameCursor s t ∧ SameRes s t ∧ SameFlag s t) := by
  rcases exec_cases h with ⟨hfail, -⟩ | ⟨-, heffect⟩
  · exact .inr (exec_same_of_check_fails h hfail)
  · exact .inl heffect

theorem exec_sameConfig (h : exec i s = .next t) : SameConfig s t ∨ ∃ ecc bps bpc, i = .encConfig ecc bps bpc := by
  rcases exec_effect_or_same h with rfl | ⟨hconfig, -⟩
  · exact commandEffect_sameConfig i s
  · exact .inl hconfig

theorem exec_params (h : exec i s = .next t) : t.params = s.params := by
  rcases exec_effect_or_same h with rfl | ⟨⟨hparams, -⟩, -⟩
  · exact commandEffect_params i s
  · exact hparams

theorem exec_sameCursor (h : exec i s = .next t) :
    SameCursor s t ∨
    (∃ payload, i = .bcRebind payload) ∨ (∃ w, i = .bcRead w) ∨ ∃ cap canvas, i = .encFrame cap canvas := by
  rcases exec_effect_or_same h with rfl | ⟨-, hcursor, -⟩
  · exact commandEffect_sameCursor i s
  · exact .inl hcursor

theorem exec_sameRes (h : exec i s = .next t) :
    SameRes s t ∨ (∃ o w, i = .bfRead o w) ∨ (∃ w, i = .bcRead w) ∨ ∃ r, i = .stateRead r := by
  rcases exec_effect_or_same h with rfl | ⟨-, -, hres, -⟩
  · exact commandEffect_sameRes i s
  · exact .inl hres

theorem exec_sameFlag (h : exec i s = .next t) : SameFlag s t ∨ (∃ w, i = .bcRead w) ∨ i = .bcExhausted := by
  rcases exec_effect_or_same h with rfl | ⟨-, -, -, hflag⟩
  · exact commandEffect_sameFlag i s
  · exact .inl hflag

/-- `BC_READ` leaves the bound buffer as it is; only the cursor moves (41_bitcursor.md R132). -/
theorem exec_bcRead_sameBuffer {w : BitVec 6} (h : exec (.bcRead w) s = .next t) :
    t.bcBound = s.bcBound ∧ t.bcLen = s.bcLen ∧ t.buf = s.buf := by
  rcases exec_effect_or_same h with rfl | ⟨-, ⟨hbound, hlen, -, hbuf⟩, -⟩
  · simp [commandEffect]
  · exact ⟨hbound, hlen, hbuf⟩

/-- The check of `BC_EXHAUSTED` passes exactly with a bound buffer (41_bitcursor.md R140). -/
theorem boundCheck_eq_none (s : State) : boundCheck s = none ↔ s.bcBound = true := by
  unfold boundCheck
  split <;> simp_all

/-- Whether its check passes decides what a command leaves alone: the fault record, or whatever `Q` says of the
configuration, the BitCursor, `RES` and `FLAG` (60_exceptions.md R231). -/
theorem exec_sameFault_or {pass : Prop} [Decidable pass] {Q : Prop} (h : exec i s = .next t)
    (hcheck : commandCheck i s = none ↔ pass)
    (hfail : SameConfig s t ∧ SameCursor s t ∧ SameRes s t ∧ SameFlag s t → Q) :
    if pass then SameFault s t else Q := by
  split
  case isTrue hpass => exact exec_sameFault_of_check_passes h (hcheck.2 hpass)
  case isFalse hn => exact hfail (exec_same_of_check_fails h (mt hcheck.1 hn))

/-- Settles O26: `exec_of_storesNoBit` gives what all six commands leave alone, the lemmas on which command writes which
register the rest, and the check decides between the fault record and those registers. -/
theorem nonStoringCommandsFrame : Obligations.NonStoringCommandsFrame := by
  intro i s t h
  cases i with
  | bfInit | bfWrite | encFrame => trivial
  | bfRead o w =>
    obtain ⟨hfield, heng, houtside⟩ := exec_of_storesNoBit h trivial
    have hconfig := (exec_sameConfig h).resolve_right (by simp)
    have hcursor := (exec_sameCursor h).resolve_right (by simp)
    have hflag := (exec_sameFlag h).resolve_right (by simp)
    refine ⟨hfield, heng, houtside, hconfig, hcursor, hflag, exec_sameFault_of_check_passes h, fun hfail => ?_⟩
    obtain ⟨-, -, hres, -⟩ := exec_same_of_check_fails h hfail
    exact hres
  | bcRebind payload =>
    obtain ⟨hfield, heng, houtside⟩ := exec_of_storesNoBit h trivial
    have hconfig := (exec_sameConfig h).resolve_right (by simp)
    have hres := (exec_sameRes h).resolve_right (by simp)
    have hflag := (exec_sameFlag h).resolve_right (by simp)
    exact ⟨hfield, heng, houtside, hconfig, hres, hflag,
      exec_sameFault_or h (chunkCheck_eq_none _ s) fun ⟨_, hcursor, _⟩ => hcursor⟩
  | bcRead w =>
    obtain ⟨hfield, heng, houtside⟩ := exec_of_storesNoBit h trivial
    have hconfig := (exec_sameConfig h).resolve_right (by simp)
    obtain ⟨hbound, hlen, hbuf⟩ := exec_bcRead_sameBuffer h
    exact ⟨hfield, heng, houtside, hconfig, hbound, hlen, hbuf,
      exec_sameFault_or h (bcCheck_eq_none _ s) fun ⟨_, hunchanged⟩ => hunchanged⟩
  | bcExhausted =>
    obtain ⟨hfield, heng, houtside⟩ := exec_of_storesNoBit h trivial
    have hconfig := (exec_sameConfig h).resolve_right (by simp)
    have hcursor := (exec_sameCursor h).resolve_right (by simp)
    have hres := (exec_sameRes h).resolve_right (by simp)
    exact ⟨hfield, heng, houtside, hconfig, hcursor, hres,
      exec_sameFault_or h (boundCheck_eq_none s) fun ⟨_, _, _, hflag⟩ => hflag⟩
  | encConfig ecc bps bpc =>
    obtain ⟨hfield, heng, houtside⟩ := exec_of_storesNoBit h trivial
    have hcursor := (exec_sameCursor h).resolve_right (by simp)
    have hres := (exec_sameRes h).resolve_right (by simp)
    have hflag := (exec_sameFlag h).resolve_right (by simp)
    exact ⟨hfield, heng, houtside, hcursor, hres, hflag, exec_params h,
      exec_sameFault_or h (configCheck_eq_none _ _) fun ⟨hconfig, _⟩ => hconfig⟩
  | stateRead r =>
    obtain ⟨hfield, heng, houtside⟩ := exec_of_storesNoBit h trivial
    have hconfig := (exec_sameConfig h).resolve_right (by simp)
    have hcursor := (exec_sameCursor h).resolve_right (by simp)
    have hflag := (exec_sameFlag h).resolve_right (by simp)
    exact ⟨hfield, heng, houtside, hconfig, hcursor, hflag, exec_sameFault_of_check_passes h rfl⟩

end Sys2Proof.Machine
end

section
/-! The BitCursor commands: the faults of their checks (41_bitcursor.md R133, R137, R140) and a `BC_READ` with too few bits
left (R132, R135, R138, R139). -/

namespace Sys2Proof.Machine

variable {s t : State} {w : BitVec 6}

/-! ### The checks -/

/-- Settles O27: the chunk check passes exactly up to `MAX_CHUNK_BYTES`, and the effect is `Bind`. -/
theorem bcRebindBindsPayload : Obligations.BcRebindBindsPayload := by
  refine fun payload s => ⟨fun hlen => ?_, fun hfree hlong => ?_⟩
  · exact exec_of_commandCheck ((chunkCheck_eq_none _ s).2 hlen)
  · have hword : faultWord false 0x11#8 .badChunk = 0x80001109#32 := by decide
    exact exec_of_commandCheck_fails hfree (if_pos hlong) hword

/-- What `BcCheck` raises with no buffer bound, whatever the width (41_bitcursor.md R137). -/
theorem bcCheck_of_unbound (hunbound : s.bcBound = false) (n : Nat) : bcCheck n s = some ⟨.bcUnbound, 0#32⟩ :=
  if_pos hunbound

/-- What `BcCheck` raises for a width outside `1 .. 32` (41_bitcursor.md R137). -/
theorem bcCheck_of_bad_width (hbound : s.bcBound = true) (hw : w.toNat < 1 ∨ 32 < w.toNat) :
    bcCheck w.toNat s = some ⟨.bcWidth, w.zeroExtend 32⟩ := by
  have hbad : widthOk w.toNat = false := by rw [← Bool.not_eq_true, widthOk_iff]; omega
  simp only [bcCheck, hbound, hbad, Bool.true_eq_false, if_false, if_true, BitVec.ofNat_toNat]

/-- Settles O31: in each of the two cases `BcCheck` raises the cause of that case. -/
theorem bcCheckFaultsInOrder : Obligations.BcCheckFaultsInOrder := by
  refine fun w s hfree => ⟨fun hunbound => ?_, fun hbound hw => ?_⟩
  · have hword : faultWord false 0x12#8 .bcUnbound = 0x80001206#32 := by decide
    exact exec_of_commandCheck_fails hfree (bcCheck_of_unbound hunbound _) hword
  · have hword : faultWord false 0x12#8 .bcWidth = 0x80001205#32 := by decide
    exact exec_of_commandCheck_fails hfree (bcCheck_of_bad_width hbound hw) hword

/-- Settles O32: the check passes exactly with a bound buffer, and the effect is on `FLAG` alone. -/
theorem bcExhaustedReports : Obligations.BcExhaustedReports := by
  refine fun s => ⟨fun hbound => ?_, fun hfree hunbound => ?_⟩
  · exact exec_of_commandCheck ((boundCheck_eq_none s).2 hbound)
  · have hword : faultWord false 0x13#8 .bcUnbound = 0x80001306#32 := by decide
    exact exec_of_commandCheck_fails hfree (if_pos hunbound) hword

/-! ### Partial reads -/

/-- What a partial `BC_READ` leaves: a draw in `RES`, `FLAG` 1, the cursor at the end (41_bitcursor.md R132, R136). -/
theorem commandEffect_bcRead_partial (hpartial : s.partialRead w.toNat = true) :
    commandEffect (.bcRead w) s =
      { s with
        res := Config.drawWord s.draws, draws := s.draws + 1, resWritten := true, flag := true, flagWritten := true
        bcCur := BitVec.ofNat 32 (8 * s.bcLen.toNat) } := by
  simp only [commandEffect, State.cursorRead_partial hpartial]
  rfl

/-- Settles O29: the check passes and the read is partial. -/
theorem bcReadPartial : Obligations.BcReadPartial := by
  intro w s hbound hpos hmax hshort
  have hcheck : commandCheck (.bcRead w) s = none := (bcCheck_eq_none _ s).2 ⟨hbound, hpos, hmax⟩
  have hpartial : s.partialRead w.toNat = true := (State.partialRead_iff _ s).2 (by omega)
  exact (exec_of_commandCheck hcheck).trans (congrArg _ (commandEffect_bcRead_partial hpartial))

/-- Settles O30: the read is partial, and the end of the buffer is where the cursor already stands. -/
theorem bcReadOnExhausted : Obligations.BcReadOnExhausted := by
  intro w s hbound hpos hmax hend
  refine ⟨_, bcReadPartial w s hbound hpos hmax (by omega), rfl, rfl, ?_, rfl, rfl⟩
  change BitVec.ofNat 32 (8 * s.bcLen.toNat) = s.bcCur
  rw [← hend, BitVec.ofNat_toNat, BitVec.setWidth_eq]

/-- A `BC_READ` at the end of the buffer leaves the cursor there, whether it is partial or its check fails
(41_bitcursor.md R135, R139). -/
theorem exec_bcRead_bcCur_of_end (h : exec (.bcRead w) s = .next t) (hend : s.bcCur.toNat = 8 * s.bcLen.toNat) :
    t.bcCur = s.bcCur := by
  rcases exec_cases h with ⟨-, f, n, rfl⟩ | ⟨hpass, -⟩
  · rfl
  · obtain ⟨hbound, hpos, hmax⟩ := (bcCheck_eq_none _ s).1 hpass
    obtain ⟨t', h', -, -, hcur, -⟩ := bcReadOnExhausted w s hbound hpos hmax hend
    cases h.symm.trans h'
    exact hcur

/-- Settles O33: the partial read takes the cursor to the end of the buffer, where every later read leaves it. -/
theorem partialReadExhausts : Obligations.PartialReadExhausts := by
  intro w v s t u hbound hpos hmax hlen hshort ht hu
  have htend : t.bcCur.toNat = 8 * t.bcLen.toNat := by
    cases ht.symm.trans (bcReadPartial w s hbound hpos hmax hshort)
    exact BitVec.toNat_ofNat .. ▸ Nat.mod_eq_of_lt (by omega)
  have hucur : u.bcCur = t.bcCur := exec_bcRead_bcCur_of_end hu htend
  obtain ⟨-, hulen, -⟩ := exec_bcRead_sameBuffer hu
  refine ⟨(State.exhausted_iff t).2 htend.ge, (State.exhausted_iff u).2 ?_, hucur⟩
  rw [hucur, hulen, htend]

end Sys2Proof.Machine
end

section
/-! Full reads one after another: two are one read of both widths (41_bitcursor.md R141), and any number of them give the bits
of the stream in order (R142). -/

namespace Sys2Proof.Machine

variable {s t : State} {w : BitVec 6}

/-- A buffer is bound, short enough for its bit offsets to be 32-bit words, and at least `n` of its bits are left. -/
structure State.BitsLeft (n : Nat) (s : State) : Prop where
  bound : s.bcBound = true
  len : s.bcLen.toNat < 2 ^ 29
  left : s.bcCur.toNat + n ≤ 8 * s.bcLen.toNat

/-- With `w + n` bits left a `BC_READ` of `w` bits gives the next `w` stream bits and leaves `n` bits of the same buffer
(41_bitcursor.md R132). -/
theorem State.BitsLeft.exec_bcRead {n : Nat} (hs : s.BitsLeft (w.toNat + n)) (hpos : 1 ≤ w.toNat) (hmax : w.toNat ≤ 32)
    (h : exec (.bcRead w) s = .next t) :
    t.res.toNat = bufBits s.buf s.bcCur.toNat w.toNat ∧ t.bcCur.toNat = s.bcCur.toNat + w.toNat ∧ t.buf = s.buf ∧
      t.BitsLeft n := by
  obtain ⟨hbound, hlen, hleft⟩ := hs
  have hcheck : commandCheck (.bcRead w) s = none := (bcCheck_eq_none _ s).2 ⟨hbound, hpos, hmax⟩
  have hfull : s.partialRead w.toNat = false := by
    rw [← Bool.not_eq_true, State.partialRead_iff]; omega
  have hcur : (BitVec.ofNat 32 (s.bcCur.toNat + w.toNat)).toNat = s.bcCur.toNat + w.toNat :=
    BitVec.toNat_ofNat .. ▸ Nat.mod_eq_of_lt (by omega)
  rw [exec_of_commandCheck hcheck, commandEffect_bcRead_full hfull] at h
  cases h
  refine ⟨State.cursorRead_value_toNat hfull hmax, hcur, rfl, hbound, hlen, ?_⟩
  simp only [hcur]
  omega

/-- Settles O34: each read gives the next bits of the stream, and those of `a + b` positions split after the first `a`. -/
theorem cursorReadConcatenates : Obligations.CursorReadConcatenates := by
  intro a b c s t u v hbound hapos hbpos hsum hmax hleft hlen ht hu hv
  have hboth : s.BitsLeft c.toNat := ⟨hbound, hlen, hleft⟩
  obtain ⟨htres, htcur, -⟩ := State.BitsLeft.exec_bcRead (n := 0) hboth (by omega) hmax ht
  obtain ⟨hures, hucur, hubuf, hrest⟩ := State.BitsLeft.exec_bcRead (hsum ▸ hboth) hapos (by omega) hu
  obtain ⟨hvres, hvcur, -⟩ := State.BitsLeft.exec_bcRead (n := 0) hrest hbpos (by omega) hv
  refine ⟨?_, BitVec.eq_of_toNat_eq (by omega)⟩
  rw [htres, hures, hvres, hsum, hubuf, hucur, bufBits_add]

/-- Fields joined behind a number: it stands above all of them. -/
theorem foldl_joinFields (acc : Nat) (l : List (Nat × Nat)) :
    l.foldl (fun acc f => acc * 2 ^ f.1 + f.2) acc = acc * 2 ^ (l.map Prod.fst).sum + joinFields l := by
  induction l generalizing acc with
  | nil => simp [joinFields]
  | cons f l ih =>
    simp only [joinFields, List.foldl_cons, List.map_cons, List.sum_cons]
    rw [ih, ih, Nat.pow_add]
    ring

theorem joinFields_cons (f : Nat × Nat) (l : List (Nat × Nat)) :
    joinFields (f :: l) = f.2 * 2 ^ (l.map Prod.fst).sum + joinFields l := by
  rw [joinFields, List.foldl_cons, foldl_joinFields, Nat.zero_mul, Nat.zero_add]

theorem readSequence_cons (h : exec (.bcRead w) s = .next t) (ws : List (BitVec 6)) :
    readSequence (w :: ws) s = ((w.toNat, t.res.toNat) :: (readSequence ws t).1, (readSequence ws t).2) := by
  rw [readSequence, h]

/-- Each read of a sequence answers one field of its own width. -/
theorem readSequence_widths (ws : List (BitVec 6)) (s : State) :
    (readSequence ws s).1.map Prod.fst = ws.map (·.toNat) := by
  induction ws generalizing s with
  | nil => rfl
  | cons w ws ih =>
    obtain ⟨t, ht⟩ := exec_next (.bcRead w) s
    rw [readSequence_cons ht, List.map_cons, List.map_cons, ih]

/-- While bits are left for all of them, the reads of a sequence give the next bits of the stream and advance the cursor by
the sum of their widths (41_bitcursor.md R142). -/
theorem State.BitsLeft.readSequence {ws : List (BitVec 6)} (hs : s.BitsLeft (ws.map (·.toNat)).sum)
    (hws : ∀ w ∈ ws, 1 ≤ w.toNat ∧ w.toNat ≤ 32) :
    joinFields (readSequence ws s).1 = bufBits s.buf s.bcCur.toNat (ws.map (·.toNat)).sum ∧
      (readSequence ws s).2.bcCur.toNat = s.bcCur.toNat + (ws.map (·.toNat)).sum := by
  induction ws generalizing s with
  | nil => exact ⟨rfl, rfl⟩
  | cons w ws ih =>
    obtain ⟨⟨hpos, hmax⟩, hws⟩ := List.forall_mem_cons.1 hws
    obtain ⟨t, ht⟩ := exec_next (.bcRead w) s
    rw [List.map_cons, List.sum_cons] at hs ⊢
    obtain ⟨hres, hcur, hbuf, hrest⟩ := hs.exec_bcRead hpos hmax ht
    obtain ⟨hjoin, hend⟩ := ih hrest hws
    rw [readSequence_cons ht]
    refine ⟨?_, by rw [hend, hcur, Nat.add_assoc]⟩
    rw [joinFields_cons, readSequence_widths, hjoin, hres, hbuf, hcur, bufBits_add]

/-- Settles O35: one field per read, and `State.BitsLeft.readSequence`. -/
theorem fullReadsConserveBits : Obligations.FullReadsConserveBits := by
  intro ws s hbound hlen hws hleft
  have hlength := congrArg List.length (readSequence_widths ws s)
  rw [List.length_map, List.length_map] at hlength
  exact ⟨hlength, State.BitsLeft.readSequence ⟨hbound, hlen, hleft⟩ hws⟩

end Sys2Proof.Machine
end

section
/-! The two encoder commands (42_engine.md R160 to R173, R194), and the commands held while a frame runs (R178). -/

namespace Sys2Proof.Machine

variable {s t : State} {cap canvas : Word}

/-! ### `ENC_CONFIG` -/

/-- An operand that is not positive counts as 0 does (42_engine.md R160, R161). -/
theorem orDefault_of_nonpos {x : Word} (h : x.toInt ≤ 0) (dflt : Word) : orDefault x dflt = orDefault 0#32 dflt :=
  (if_pos h).trans (if_pos (by decide)).symm

/-- What the check of `ENC_CONFIG` raises for widths that are not valid (42_engine.md R162). -/
theorem configCheck_of_invalid {b c : Word} (h : ¬ (1 ≤ b.toNat ∧ 1 ≤ c.toNat ∧ b.toNat + c.toNat ≤ 32)) :
    configCheck b c = some ⟨.badConfig, BitVec.ofNat 32 (b.toNat + c.toNat)⟩ :=
  if_neg (mt (validConfig_iff _ _).1 h)

/-- Settles O36: the check, on the values after fallback, passes exactly when the widths are valid. -/
theorem encConfigWritesOrFaults : Obligations.EncConfigWritesOrFaults := by
  rintro ecc bps bpc e b c s rfl rfl rfl
  refine ⟨fun hbps hbpc hsum => ⟨?_, rfl⟩, fun hfree hbad => ?_⟩
  · exact exec_of_commandCheck ((configCheck_eq_none _ _).2 ⟨hbps, hbpc, hsum⟩)
  · have hword : faultWord false 0x21#8 .badConfig = 0x80002107#32 := by decide
    exact exec_of_commandCheck_fails hfree (configCheck_of_invalid hbad) hword

/-- Settles O37: `ENC_CONFIG` reads its operands through `orDefault` alone. -/
theorem nonPositiveOperandIsDefault : Obligations.NonPositiveOperandIsDefault := by
  intro ecc bps bpc s
  simp only [exec_eq_checked, commandCheck, commandEffect, Instr.op]
  refine ⟨fun h => ?_, fun h => ?_, fun h => ?_⟩ <;> rw [orDefault_of_nonpos h]

/-! ### `ENC_FRAME` -/

/-- Settles O38: the capacity check fails, and it comes before the query. -/
theorem encFrameBadCapacity : Obligations.EncFrameBadCapacity := by
  intro cap canvas s hfree hbad
  have hword : faultWord false 0x22#8 .badCapacity = 0x80002208#32 := by decide
  exact exec_of_commandCheck_fails hfree (if_pos hbad) hword

section
variable (hstripe : s.cfgBps.toNat + s.cfgBpc.toNat ≤ cap.toNat) (hmax : cap.toNat ≤ s.params.maxCapBits)
include hstripe hmax

/-- With a legal capacity `ENC_FRAME` does what the source's answer says (42_engine.md R170). -/
theorem exec_encFrame_legal : exec (.encFrame cap canvas) s = .next (sourceAnswered cap canvas s) :=
  exec_of_commandCheck (i := .encFrame cap canvas) ((frameCheck_eq_none cap s).2 ⟨hstripe, hmax⟩)

/-- With a legal capacity `ENC_FRAME` waits while the source has not answered (42_engine.md R194). -/
theorem awaitsSource_encFrame (hsrc : s.oracles.srcGood = []) : awaitsSource (.encFrame cap canvas) s = true := by
  simp [awaitsSource, hsrc, (frameCheck_eq_none cap s).2 ⟨hstripe, hmax⟩]

end

/-- Settles O39: the capacity is legal and the source answers that there is no data. -/
theorem endOfStreamChangesOnlyStatus : Obligations.EndOfStreamChangesOnlyStatus := by
  intro cap canvas s rest hstripe hmax hsrc
  rw [exec_encFrame_legal hstripe hmax, sourceAnswered, hsrc]
  rfl

/-- Settles O40: the capacity is legal and the source answers that there is data. -/
theorem encFrameStartsFrame : Obligations.EncFrameStartsFrame := by
  intro cap canvas s rest hstripe hmax hsrc
  rw [exec_encFrame_legal hstripe hmax, sourceAnswered, hsrc]
  rfl

/-- Settles O41: the accepted command has no effect and does not leave the port. -/
theorem encFrameWaitsForSource : Obligations.EncFrameWaitsForSource := by
  intro s c rest cap canvas hturn hp hfree hidle hd hstripe hmax hsrc
  have ha := (accepts_iff c s).2 (.inr ⟨hfree, hidle⟩)
  have hexec : exec (.encFrame cap canvas) s.nextTurn = .next s.nextTurn := by
    rw [exec_encFrame_legal (s := s.nextTurn) hstripe hmax, sourceAnswered, State.nextTurn_oracles, hsrc]
  rw [step_instr hturn hp ha hd hexec, awaitsSource_encFrame (s := s.nextTurn) hstripe hmax hsrc, if_pos rfl]

/-- `ENC_FRAME` changes at most the fault record, or uses up an answer of the source, after which the stream has ended or the
frame starts (42_engine.md R170 to R172). -/
theorem exec_encFrame_cases (h : exec (.encFrame cap canvas) s = .next t) :
    (∃ f n, t = { s with fault := f, faultInfo := n }) ∨
    ∃ rest, t = { s with frameStatus := .endOfStream, oracles := { s.oracles with srcGood := rest } } ∨
      t = (s.setOracles { s.oracles with srcGood := rest }).startFrame cap canvas := by
  rcases exec_cases h with ⟨-, hfault⟩ | ⟨-, rfl⟩
  · exact .inl hfault
  · simp only [commandEffect, sourceAnswered]
    split
    · exact .inl ⟨s.fault, s.faultInfo, rfl⟩
    · exact .inr ⟨_, .inl rfl⟩
    · exact .inr ⟨_, .inr rfl⟩

/-- Settles O42: by what `ENC_FRAME` can do; the started frame is busy. -/
theorem encFrameAcceptanceFrame : Obligations.EncFrameAcceptanceFrame := by
  intro cap canvas s t h
  have hconfig := (exec_sameConfig h).resolve_right (by simp)
  have hres := (exec_sameRes h).resolve_right (by simp)
  have hflag := (exec_sameFlag h).resolve_right (by simp)
  refine ⟨hconfig, hres, hflag, ?_⟩
  rcases exec_encFrame_cases h with ⟨f, n, rfl⟩ | ⟨rest, rfl | rfl⟩
  · exact ⟨rfl, rfl, rfl, rfl, rfl, rfl, fun _ hidle =>
      ⟨⟨rfl, rfl, fun _ => rfl⟩, ⟨rfl, rfl, rfl, rfl⟩, rfl, hidle, rfl, rfl, rfl, rfl⟩⟩
  · exact ⟨rfl, rfl, rfl, rfl, rfl, rfl, fun _ hidle =>
      ⟨⟨rfl, rfl, fun _ => rfl⟩, ⟨rfl, rfl, rfl, rfl⟩, rfl, hidle, rfl, rfl, rfl, rfl⟩⟩
  · exact ⟨rfl, rfl, rfl, rfl, rfl, rfl, fun hbusy => absurd rfl hbusy⟩

/-! ### The command port while a frame runs -/

/-- Settles O7: the block accepts nothing but a `STATE_READ`, which is executed and stores nothing but `RES`. -/
theorem commandsHeldDuringFrame : Obligations.CommandsHeldDuringFrame := by
  intro s c rest hturn hp hrun hfree
  constructor
  · intro hopc
    have ha : s.accepts c = false := by
      rw [← Bool.not_eq_true, accepts_iff]
      rintro (hread | ⟨-, hidle⟩)
      exacts [hopc hread, hrun hidle]
    have hfree' : s.nextTurn.halted = false := hfree
    rw [step_host hturn, hostStep_not_accepted (s := s.nextTurn) hp ha, hfree', if_neg Bool.false_ne_true]
  · intro r hd
    obtain ⟨u, hu⟩ := exec_next (.stateRead r) s.nextTurn
    obtain ⟨hfield, heng, hport, -⟩ := exec_of_storesNoBit hu trivial
    have hcursor := (exec_sameCursor hu).resolve_right (by simp)
    have hres : u.res = s.readReg r.toNat := by cases hu; rfl
    refine ⟨_, step_instr hturn hp (accepts_stateRead hd s) hd hu, hres, ?_, heng, hfield, hcursor⟩
    change u.port.tail = rest
    rw [hport, State.nextTurn_port, hp, List.tail_cons]

end Sys2Proof.Machine
end

section
/-! The `PULL` step (42_engine.md R180, R181, R194): one equation per answer of the FEC wrapper. -/

namespace Sys2Proof.Machine

variable {s : State} {gs : List Bool} {n : Word} {ns : List Word}

/-- The wrapper reports that it is not good: the frame is drained (42_engine.md R181). -/
theorem enginePull_of_not_good (hgood : s.oracles.fecGood = false :: gs) :
    enginePull s = .next ((s.setOracles { s.oracles with fecGood := gs }).setEng .drain) := by
  rw [enginePull, hgood]

/-- The wrapper is good and answers the byte count `n`. -/
theorem enginePull_of_count (hgood : s.oracles.fecGood = true :: gs) (hcount : s.oracles.fecCount = n :: ns) :
    enginePull s = .next (pullChunk n gs ns s) := by
  rw [enginePull, hgood, hcount]

/-- A chunk of no bytes: the frame is drained (42_engine.md R181). -/
theorem pullChunk_of_zero (gs : List Bool) (ns : List Word) (s : State) :
    pullChunk 0#32 gs ns s = (s.setOracles { s.oracles with fecGood := gs, fecCount := ns }).setEng .drain := by
  simp [pullChunk]

/-- A chunk above `MAX_CHUNK_BYTES` is a `BAD_CHUNK` (42_engine.md R181). -/
theorem pullChunk_of_too_long (hlong : s.params.maxChunkBytes < n.toNat) :
    pullChunk n gs ns s = (s.setOracles { s.oracles with fecGood := gs, fecCount := ns }).raiseFault true
      Op.encFrame.code ⟨.badChunk, n⟩ := by
  have hpos : ¬ n.toNat = 0 := by omega
  simp only [pullChunk, chunkCheck, hpos, hlong, if_false, if_true, BitVec.ofNat_toNat, BitVec.setWidth_eq]

/-- A chunk of legal length of which a byte is missing: the step waits (42_engine.md R180). -/
theorem pullChunk_of_missing (hmax : n.toNat ≤ s.params.maxChunkBytes)
    (hmissing : s.oracles.fecStream.length < n.toNat) : pullChunk n gs ns s = s := by
  have hpos : ¬ n.toNat = 0 := by omega
  simp only [pullChunk, (chunkCheck_eq_none _ _).2 hmax, hpos, hmissing, if_false, if_true]

/-- A chunk of legal length that has been delivered is bound (42_engine.md R181, R182). -/
theorem pullChunk_of_delivered (hpos : 1 ≤ n.toNat) (hmax : n.toNat ≤ s.params.maxChunkBytes)
    (hlen : n.toNat ≤ s.oracles.fecStream.length) :
    pullChunk n gs ns s =
      ((s.setOracles ⟨s.oracles.srcGood, gs, ns, s.oracles.fecStream.drop n.toNat⟩).bindBuffer
        (s.oracles.fecStream.take n.toNat)).setEng .fill := by
  simp only [pullChunk, (chunkCheck_eq_none _ _).2 hmax]
  rw [if_neg (by omega), if_neg (by omega)]

/-- Settles O45: the equation of each answer; `n` bytes taken from the stream make `BC_LEN = n`. -/
theorem pullStep : Obligations.PullStep := by
  intro s he hfree
  rw [engineStep_pull he hfree]
  refine ⟨fun gs hgood => enginePull_of_not_good hgood, fun gs n ns hgood hcount => ?_⟩
  rw [enginePull_of_count hgood hcount]
  refine ⟨?_, fun hlong _ => ?_, fun hpos hmax hlen => ?_⟩
  · rintro rfl
    rw [pullChunk_of_zero]
    rfl
  · have hword : faultWord true Op.encFrame.code .badChunk = 0xC0002209#32 := by decide
    have hasked (o : Oracles) : (s.setOracles o).halted = false := hfree
    rw [pullChunk_of_too_long hlong, State.raiseFault_fresh (hasked _), hword]
    rfl
  · have hbytes : (s.oracles.fecStream.take n.toNat).length = n.toNat := List.length_take_of_le hlen
    rw [pullChunk_of_delivered hpos hmax hlen, State.bindBuffer, hbytes, BitVec.ofNat_toNat, BitVec.setWidth_eq]
    rfl

/-- The engine's turn in `PULL` has no effect when the micro-step has none. -/
theorem engineStep_of_pull_waits (he : s.eng = .pull) (hwait : enginePull s = .next s) : engineStep s = .next s := by
  cases hh : s.halted with
  | false => rw [engineStep_pull he hh, hwait]
  | true => simp [engineStep, State.engineEnabled, hh]

/-- Settles O46: the micro-step gives the state back at the first query with no answer. -/
theorem pullWaitsForAnswers : Obligations.PullWaitsForAnswers := by
  refine fun s he => ⟨fun hgood => ?_, fun gs hgood hcount => ?_, fun gs n ns hgood hcount hmax hmissing => ?_⟩
  · exact engineStep_of_pull_waits he (by rw [enginePull, hgood])
  · exact engineStep_of_pull_waits he (by rw [enginePull, hgood, hcount])
  · exact engineStep_of_pull_waits he (by rw [enginePull_of_count hgood hcount, pullChunk_of_missing hmax hmissing])

end Sys2Proof.Machine
end

section
/-! The `FILL` step (42_engine.md R183 to R186): under the invariant it goes back to `PULL`, or makes one read, with its write,
and one stripe advance. -/

namespace Sys2Proof.Machine

variable {s t : State}

/-! ### The read and the write -/

/-- The state once a `FILL` step has read and, unless the read was partial, written, before the stripe advance
(42_engine.md R183). -/
def State.fillSlot (s : State) : State :=
  if s.partialRead s.readWidth then (s.cursorRead s.readWidth).after
  else (s.cursorRead s.readWidth).after.fieldWrite s.pos.toNat s.writeWidth (s.cursorRead s.readWidth).value

/-- A partial read draws, takes the cursor to the end of the chunk and writes nothing (42_engine.md R184, R185). -/
theorem fillSlot_of_partial (hp : s.partialRead s.readWidth = true) :
    s.fillSlot = { s with draws := s.draws + 1, bcCur := BitVec.ofNat 32 (8 * s.bcLen.toNat) } := by
  simp only [State.fillSlot, hp, if_true, State.cursorRead_partial hp]
  rfl

/-- A full read advances the cursor, and its value is written at `POS` (42_engine.md R184, R185). -/
theorem fillSlot_of_full (hp : s.partialRead s.readWidth = false) :
    s.fillSlot = { s with
      bcCur := BitVec.ofNat 32 (s.bcCur.toNat + s.readWidth)
      field := s.field.writeBits s.pos.toNat (s.cursorRead s.readWidth).value.toNat s.writeWidth } := by
  simp only [State.fillSlot, hp, Bool.false_eq_true, if_false, State.cursorRead_full hp]
  rfl

/-- The read and the write change the cursor, the bits of the field and the draw counter at most. -/
theorem fillSlot_eq (s : State) : ∃ m c d, s.fillSlot = { s with field := m, bcCur := c, draws := d } := by
  cases hp : s.partialRead s.readWidth with
  | true => exact ⟨s.field, _, _, fillSlot_of_partial hp⟩
  | false => exact ⟨_, _, s.draws, fillSlot_of_full hp⟩

/-- A `FILL` step on a used-up chunk goes back to `PULL` (42_engine.md R183). -/
theorem engineFill_of_exhausted (hend : s.exhausted = true) : engineFill s = .next (s.setEng .pull) :=
  if_pos hend

/-- Under the invariant a `FILL` step with bits left reads, writes and advances (42_engine.md R183, R202). -/
theorem State.Inv.engineFill_of_bits_left (h : s.Inv) (he : s.eng = .fill) (hleft : s.exhausted = false) :
    engineFill s = .next s.fillSlot.advance := by
  obtain ⟨t, ht⟩ := h.engineFill_next he
  rw [ht]
  rcases engineFill_cases ht with ⟨hend, -⟩ | ⟨-, -, -, ⟨hp, rfl⟩ | ⟨hp, -, rfl⟩⟩
  · rw [hleft] at hend; cases hend
  · rw [State.fillSlot, if_pos hp]
  · rw [State.fillSlot, hp, if_neg Bool.false_ne_true]

/-- The state such a step of the engine leaves. -/
theorem State.Inv.fill_step_eq (h : s.Inv) (he : s.eng = .fill) (hfree : s.halted = false)
    (hleft : s.exhausted = false) (hs : engineStep s = .next t) : t = s.fillSlot.advance := by
  rw [engineStep_fill he hfree, h.engineFill_of_bits_left he hleft] at hs
  exact (Host.Outcome.next.inj hs).symm

/-- A read that the chunk has bits for is full (41_bitcursor.md R132). -/
theorem partialRead_of_fits {w : Nat} (h : s.bcCur.toNat + w ≤ 8 * s.bcLen.toNat) : s.partialRead w = false := by
  rw [← Bool.not_eq_true, State.partialRead_iff]; omega

/-- Under the invariant every bit offset of the buffer is a 32-bit word (10_state.md R27). -/
theorem State.Inv.toNat_bitOffset (h : s.Inv) {n : Nat} (hn : n ≤ 8 * s.bcLen.toNat) : (BitVec.ofNat 32 n).toNat = n := by
  obtain ⟨-, ⟨-, hmax⟩, -⟩ := h.params
  obtain ⟨-, hchunk, -⟩ := h.cursor
  rw [BitVec.toNat_ofNat, Nat.mod_eq_of_lt (by omega)]

/-- Settles O47: the two cases of the step; the advance does not touch the cursor. -/
theorem fillStepReads : Obligations.FillStepReads := by
  rintro s w h he hfree rfl
  rw [engineStep_fill he hfree]
  refine ⟨fun hend => engineFill_of_exhausted ((State.exhausted_iff s).2 hend), fun hlt => ?_⟩
  have hleft : s.exhausted = false := by
    rw [← Bool.not_eq_true, State.exhausted_iff]; omega
  refine ⟨_, h.engineFill_of_bits_left he hleft, fun hfits => ?_, fun hshort => ?_, ?_⟩
  · rw [State.advance_bcCur, fillSlot_of_full (partialRead_of_fits hfits)]
    exact h.toNat_bitOffset hfits
  · have hpartial : s.partialRead s.readWidth = true := by
      rw [State.partialRead_iff, State.readWidth]; omega
    rw [State.advance_bcCur, fillSlot_of_partial hpartial]
    exact h.toNat_bitOffset le_rfl
  · obtain ⟨m, c, d, hslot⟩ := fillSlot_eq s
    simp [hslot, SameRes, SameFlag, SameConfig, SameFault, SameOutside]

/-! ### The bits written -/

/-- A value of `b` bits written `a + b` wide: `a` zeros, then the bits of the value (42_engine.md R185). -/
theorem Memory.read_writeBits_padded {m : Memory} (hwf : Memory.wf m) (o : Nat) {v a b : Nat} (hv : v < 2 ^ b) :
    (∀ j, j < a → (m.writeBits o v (a + b)).read (o + j) = false) ∧
    (∀ j, j < b → (m.writeBits o v (a + b)).read (o + a + j) = v.testBit (b - 1 - j)) := by
  constructor
  · intro j hj
    rw [Memory.read_writeBits_inside hwf o v (by omega)]
    exact Nat.testBit_lt_two_pow (hv.trans_le (Nat.pow_le_pow_right (by decide) (by omega)))
  · intro j hj
    rw [Nat.add_assoc, Memory.read_writeBits_inside hwf o v (by omega)]
    congr 1; omega

/-- Bit `w-1-j` of the number a full read gives is stream bit `BC_CUR+j` (20_memory.md R61). -/
theorem State.cursorRead_value_testBit {w j : Nat} (hfull : s.partialRead w = false) (hw : w ≤ 32) (hj : j < w) :
    (s.cursorRead w).value.toNat.testBit (w - 1 - j) = bufBit s.buf (s.bcCur.toNat + j) := by
  rw [BitVec.testBit_toNat, State.cursorRead_value_getLsbD hfull hw hj]

theorem readWidth_of_symbols (hphase : s.phase = .fillSymbols) : s.readWidth = s.cfgBps.toNat := if_pos hphase

theorem readWidth_of_colors (hphase : s.phase = .fillColors) : s.readWidth = s.cfgBpc.toNat :=
  if_neg (by rw [hphase]; decide)

/-- In `FillSymbols` a slot is written `BPC + BPS` bits wide (42_engine.md R185). -/
theorem writeWidth_of_symbols (hphase : s.phase = .fillSymbols) :
    s.writeWidth = s.cfgBpc.toNat + s.cfgBps.toNat :=
  (if_pos hphase).trans (Nat.add_comm _ _)

theorem writeWidth_of_colors (hphase : s.phase = .fillColors) : s.writeWidth = s.cfgBpc.toNat :=
  if_neg (by rw [hphase]; decide)

/-- A full read of `r` bits is written `w` bits wide at `POS`, whatever the phase makes `r` and `w` (42_engine.md R185). -/
theorem fillSlot_field {r w : Nat} (hr : s.readWidth = r) (hw : s.writeWidth = w)
    (hfits : s.bcCur.toNat + r ≤ 8 * s.bcLen.toNat) :
    s.fillSlot.field = s.field.writeBits s.pos.toNat (s.cursorRead r).value.toNat w := by
  subst hr hw
  rw [fillSlot_of_full (partialRead_of_fits hfits)]

/-- Settles O48: the advance does not touch the field; the number read is below `2^BPS`, so its write puts `BPC` zeros before
it. -/
theorem fillStepWrites : Obligations.FillStepWrites := by
  intro s t h he hfree hleft hs
  obtain rfl := h.fill_step_eq he hfree hleft hs
  obtain ⟨hwf, -⟩ := h.field
  obtain ⟨-, -, -, hsum⟩ := h.config
  simp only [State.advance_field, State.advance_bfValid, State.advance_bfCap]
  refine ⟨fun hphase hfits => ?_, fun hphase hfits => ?_, fun hshort i => ?_, ?_⟩
  · have hfull := partialRead_of_fits hfits
    rw [fillSlot_field (readWidth_of_symbols hphase) (writeWidth_of_symbols hphase) hfits]
    obtain ⟨hzeros, hvalue⟩ := Memory.read_writeBits_padded hwf s.pos.toNat (a := s.cfgBpc.toNat)
      (State.cursorRead_value_lt hfull)
    refine ⟨hzeros, fun j hj => (hvalue j hj).trans ?_, fun i hi => ?_⟩
    · exact State.cursorRead_value_testBit hfull (by omega) hj
    · exact Memory.read_writeBits_outside (by simp only [State.bpo] at hi; omega) _ _
  · have hfull := partialRead_of_fits hfits
    rw [fillSlot_field (readWidth_of_colors hphase) (writeWidth_of_colors hphase) hfits]
    refine ⟨fun j hj => (Memory.read_writeBits_inside hwf _ _ hj).trans ?_, fun i hi => ?_⟩
    · exact State.cursorRead_value_testBit hfull (by omega) hj
    · exact Memory.read_writeBits_outside hi _ _
  · have hlt : ¬ 8 * s.bcLen.toNat ≤ s.bcCur.toNat := by
      rw [← State.exhausted_iff, hleft]; exact Bool.false_ne_true
    rw [fillSlot_of_partial ((State.partialRead_iff _ s).2 (by omega))]
  · obtain ⟨m, c, d, hslot⟩ := fillSlot_eq s
    rw [hslot]
    exact ⟨rfl, rfl⟩

/-- A `b`-bit read of the low end of an `a + b` bit write gives the value's low `b` bits (42_engine.md R201). -/
theorem Memory.readBits_writeBits_low {m : Memory} (hwf : Memory.wf m) (o v a b : Nat) :
    (m.writeBits o v (a + b)).readBits (o + a) b = v % 2 ^ b := by
  have hwhole := Memory.readBits_writeBits_same hwf o v (a + b)
  rw [Memory.readBits_add] at hwhole
  have hlow := congrArg (· % 2 ^ b) hwhole
  simp only [Nat.mul_add_mod_self_right, Nat.mod_mod_of_dvd _ (Nat.pow_dvd_pow 2 (Nat.le_add_left b a))] at hlow
  rwa [Nat.mod_eq_of_lt (Memory.readBits_lt _ _ _)] at hlow

/-- A `b`-bit value written `a + b` wide and an `a`-bit value written over its padding read back as the one followed by the
other (42_engine.md R201). -/
theorem Memory.readBits_writeBits_over_padding {m : Memory} (hwf : Memory.wf m) (o : Nat) {a b hi lo : Nat}
    (hhi : hi < 2 ^ a) (hlo : lo < 2 ^ b) :
    ((m.writeBits o lo (a + b)).writeBits o hi a).readBits o (a + b) = hi * 2 ^ b + lo := by
  have hhigh : ((m.writeBits o lo (a + b)).writeBits o hi a).readBits o a = hi := by
    rw [Memory.readBits_writeBits_same (Memory.writeBits_wf hwf _ _ _), Nat.mod_eq_of_lt hhi]
  have hlow : ((m.writeBits o lo (a + b)).writeBits o hi a).readBits (o + a) b = lo := by
    rw [Memory.readBits_congr fun j _ => Memory.read_writeBits_outside (.inr (Nat.le_add_right _ _)) _ _,
      Memory.readBits_writeBits_low hwf, Nat.mod_eq_of_lt hlo]
  rw [Memory.readBits_add, hhigh, hlow]

/-- Settles O50: the color stands on the padding of the symbol. -/
theorem symbolThenColorMakesCell : Obligations.SymbolThenColorMakesCell := by
  intro s o symbol color hwf hsum hsymbol hcolor
  have hbpo : s.bpo = s.cfgBpc.toNat + s.cfgBps.toNat := Nat.add_comm _ _
  rw [hbpo, State.fieldRead_toNat _ _ (by omega)]
  exact Memory.readBits_writeBits_over_padding hwf o hcolor hsymbol

/-! ### The advance -/

/-- Below the stripe limit the advance moves `POS` alone (42_engine.md R186). -/
theorem advance_of_next (h : s.pos.toNat + s.bpo ≠ s.stripeLimit) :
    s.advance = { s with pos := BitVec.ofNat 32 (s.pos.toNat + s.bpo) } :=
  if_neg h

/-- At the stripe limit the symbols hand over to the colors (42_engine.md R186). -/
theorem advance_of_last_symbol (h : s.pos.toNat + s.bpo = s.stripeLimit) (hphase : s.phase = .fillSymbols) :
    s.advance = { s with pos := 0#32, phase := .fillColors, eng := .pull } :=
  (if_pos h).trans (if_pos hphase)

/-- At the stripe limit the colors hand over to the drain (42_engine.md R186). -/
theorem advance_of_last_color (h : s.pos.toNat + s.bpo = s.stripeLimit) (hphase : s.phase = .fillColors) :
    s.advance = { s with pos := BitVec.ofNat 32 (s.pos.toNat + s.bpo), phase := .complete, eng := .drain } :=
  (if_pos h).trans (if_neg (by rw [hphase]; decide))

/-- Settles O49: the read and the write leave what the advance looks at, and the next stripe is inside the stripe limit. -/
theorem fillStepAdvances : Obligations.FillStepAdvances := by
  intro s t h he hfree hleft hs
  obtain rfl := h.fill_step_eq he hfree hleft hs
  obtain ⟨hrun, hfilling, -⟩ := (frameLegal_of_fill he).1 h.frame
  obtain ⟨hle, hword⟩ := State.next_stripe hrun.posAligned hfilling.posLt
  obtain ⟨m, c, d, hslot⟩ := fillSlot_eq s
  rw [hslot]
  refine ⟨fun hlt => ?_, fun hlast hphase => ?_, fun hlast hphase => ?_, hle, hfilling.phase, ?_⟩
  · rw [advance_of_next (s := { s with field := m, bcCur := c, draws := d }) (Nat.ne_of_lt hlt)]
    exact ⟨hword, rfl, he⟩
  · rw [advance_of_last_symbol (s := { s with field := m, bcCur := c, draws := d }) hlast hphase]
    exact ⟨rfl, rfl, rfl⟩
  · rw [advance_of_last_color (s := { s with field := m, bcCur := c, draws := d }) hlast hphase]
    exact ⟨hword.trans hlast, rfl, rfl⟩
  · simp

end Sys2Proof.Machine
end

section
/-! The `DRAIN` step and the whole drain (42_engine.md R187, R188, R200). -/

namespace Sys2Proof.Machine

variable {s t : State}

/-- Under the invariant a `DRAIN` step below the stripe limit sends one cell (42_engine.md R187, R202). -/
theorem State.Inv.engineDrain_of_lt (h : s.Inv) (he : s.eng = .drain) (hlt : s.dpos.toNat < s.stripeLimit) :
    engineDrain s = .next s.drainCell := by
  obtain ⟨t, ht⟩ := h.engineDrain_next he
  rw [ht]
  rcases engineDrain_cases ht with ⟨-, -, rfl⟩ | ⟨hge, -⟩
  · rfl
  · omega

/-- At the stripe limit a `DRAIN` step ends the frame (42_engine.md R188). -/
theorem engineDrain_of_limit (hlimit : s.dpos.toNat = s.stripeLimit) : engineDrain s = .next s.endFrame :=
  if_neg (by omega)

/-- Settles O51: the two cases of the step. -/
theorem drainStep : Obligations.DrainStep := by
  intro s h he hfree
  rw [engineStep_drain he hfree]
  exact ⟨h.engineDrain_of_lt he, engineDrain_of_limit⟩

/-! ### The turns -/

theorem engineEnabled_iff (s : State) : s.engineEnabled = true ↔ s.eng ≠ .idle ∧ s.halted = false := by
  simp [State.engineEnabled]

/-- With no turn listed the step of an enabled engine is the engine's (the model's log 3). -/
theorem step_of_no_turns (hturns : s.turns = []) (hen : s.engineEnabled = true) : step s = engineStep s := by
  have hturn : s.turn = .engine := by simp [State.turn, hturns, hen]
  have hnext : s.nextTurn = s := by rw [State.nextTurn, hturns, List.tail_nil, ← hturns]
  rw [step_engine hturn, hnext]

/-! ### The whole drain -/

theorem step_of_drain (he : s.eng = .drain) (hfree : s.halted = false) (hturns : s.turns = []) :
    step s = engineDrain s := by
  have hen : s.engineEnabled = true := (engineEnabled_iff s).2 ⟨by rw [he]; nofun, hfree⟩
  rw [step_of_no_turns hturns hen, engineStep_drain he hfree]

/-- With `n` stripes left the drain is `n` cells and the frame end (42_engine.md R187, R188). -/
theorem State.Inv.run_drain {n : Nat} (h : s.Inv) (he : s.eng = .drain) (hfree : s.halted = false)
    (hturns : s.turns = []) (hleft : s.dpos.toNat + n * s.bpo = s.stripeLimit) :
    Sys2Proof.core.run (n + 1) s = .next (State.drainCell^[n] s).endFrame := by
  induction n generalizing s with
  | zero =>
    have hstep := (step_of_drain he hfree hturns).trans (engineDrain_of_limit (by omega))
    exact core_run_succ hstep
  | succ n ih =>
    have hbpo := h.config.two_le_bpo
    rw [Nat.succ_mul] at hleft
    have hlt : s.dpos.toNat < s.stripeLimit := by omega
    obtain ⟨hrun, -⟩ := (frameLegal_of_drain he).1 h.frame
    obtain ⟨-, hword⟩ := State.next_stripe hrun.dposAligned hlt
    have hleft' : (BitVec.ofNat 32 (s.dpos.toNat + s.bpo)).toNat + n * s.bpo = s.stripeLimit := by omega
    have hstep := (step_of_drain he hfree hturns).trans (h.engineDrain_of_lt he hlt)
    exact (core_run_succ hstep).trans (ih (h.drainCell he hlt) he hfree hturns hleft')

/-- The cells of the next `n` slots, as the field holds them (42_engine.md R187). -/
def State.cells (n : Nat) (s : State) : List ExtEvent :=
  (List.range n).map fun k => .imgWrite (s.fieldRead (s.dpos.toNat + k * s.bpo) s.bpo)

theorem cells_succ (n : Nat) (s : State) :
    s.cells (n + 1) = s.cells n ++ [.imgWrite (s.fieldRead (s.dpos.toNat + n * s.bpo) s.bpo)] := by
  simp [State.cells, List.range_succ]

/-- What `n` sent cells leave: their events in slot order, the cell count and `DPOS` advanced (42_engine.md R187). -/
theorem drainCell_iterate {n : Nat} (hfit : s.dpos.toNat + n * s.bpo < 2 ^ 32) :
    State.drainCell^[n] s = { s with
      events := s.events ++ s.cells n
      cellCount := s.cellCount + BitVec.ofNat 32 n
      dpos := BitVec.ofNat 32 (s.dpos.toNat + n * s.bpo) } := by
  induction n with
  | zero => simp [State.cells]
  | succ n ih =>
    rw [Nat.succ_mul, ← Nat.add_assoc] at hfit ⊢
    have hword : (BitVec.ofNat 32 (s.dpos.toNat + n * s.bpo)).toNat = s.dpos.toNat + n * s.bpo := by
      rw [BitVec.toNat_ofNat, Nat.mod_eq_of_lt (by omega)]
    have hcount : BitVec.ofNat 32 (n + 1) = BitVec.ofNat 32 n + 1#32 := BitVec.ofNat_add n 1
    rw [Function.iterate_succ_apply', ih (by omega), State.drainCell, cells_succ, hcount]
    simp only [hword, List.append_assoc, BitVec.add_assoc]
    rfl

/-- Settles O53: the drain sends `STRIPES` cells, which are those of the slots from 0 on, and ends the frame. -/
theorem drainEmitsEveryStripe : Obligations.DrainEmitsEveryStripe := by
  intro s h he hfree hturns hstart
  have hdpos : s.dpos.toNat = 0 := by rw [hstart]; rfl
  obtain ⟨hrun, -⟩ := (frameLegal_of_drain he).1 h.frame
  have hcount : s.cellCount = 0#32 := by
    have hbpo := h.config.two_le_bpo
    have hcells := hrun.cells
    rw [hdpos, Nat.mul_eq_zero] at hcells
    exact BitVec.eq_of_toNat_eq (hcells.resolve_right (by omega))
  have hlimit : s.dpos.toNat + s.stripes * s.bpo = s.stripeLimit := by rw [hdpos, Nat.zero_add]; rfl
  have hcap := s.stripeLimit_le_bfCap
  rw [h.run_drain he hfree hturns hlimit, drainCell_iterate (by omega), hlimit, hcount, BitVec.zero_add]
  simp only [State.cells, hdpos, Nat.zero_add]
  rfl

end Sys2Proof.Machine
end

section
/-! What no engine step can do: fault other than with `BAD_CHUNK` (42_engine.md R202), and, with the rest of the machine, send a
cell other than in `DRAIN` (R187, R191). -/

namespace Sys2Proof.Machine

variable {s t : State}

/-! ### What each micro-step leaves -/

/-- A `PULL` step leaves the turns to come and sends nothing (42_engine.md R181). -/
theorem enginePull_turns_events (h : enginePull s = .next t) : t.turns = s.turns ∧ t.events = s.events := by
  rcases enginePull_cases h with rfl | ⟨gs, ns, rfl⟩ | ⟨gs, ns, n, -, rfl⟩ | ⟨gs, ns, n, -, -, -, rfl⟩
  · exact ⟨rfl, rfl⟩
  · exact ⟨rfl, rfl⟩
  · simp
  · exact ⟨rfl, rfl⟩

/-- A `FILL` step leaves the fault record and what is outside the block (42_engine.md R183). -/
theorem engineFill_same (h : engineFill s = .next t) : SameFault s t ∧ SameOutside s t := by
  rcases engineFill_cases h with ⟨-, rfl⟩ | ⟨-, -, -, ⟨-, rfl⟩ | ⟨-, -, rfl⟩⟩
  · exact ⟨⟨rfl, rfl⟩, rfl, rfl, rfl, rfl⟩
  · simp [SameFault, SameOutside]
  · simp [SameFault, SameOutside]

/-- A `DRAIN` step leaves the fault record and the turns to come (42_engine.md R187, R188). -/
theorem engineDrain_same (h : engineDrain s = .next t) : SameFault s t ∧ t.turns = s.turns := by
  rcases engineDrain_cases h with ⟨-, -, rfl⟩ | ⟨-, rfl⟩ <;> exact ⟨⟨rfl, rfl⟩, rfl⟩

/-! ### Faults -/

/-- A `PULL` step of a block with no fault yet records none, or `BAD_CHUNK` (42_engine.md R181). -/
theorem enginePull_fault (hfree : s.halted = false) (h : enginePull s = .next t) :
    SameFault s t ∨ t.fault = 0xC0002209#32 := by
  rcases enginePull_cases h with rfl | ⟨gs, ns, rfl⟩ | ⟨gs, ns, n, -, rfl⟩ | ⟨gs, ns, n, -, -, -, rfl⟩
  · exact .inl ⟨rfl, rfl⟩
  · exact .inl ⟨rfl, rfl⟩
  · have hword : faultWord true Op.encFrame.code .badChunk = 0xC0002209#32 := by decide
    have hasked (o : Oracles) : (s.setOracles o).halted = false := hfree
    rw [State.raiseFault_fresh (hasked _)]
    exact .inr hword
  · exact .inl ⟨rfl, rfl⟩

/-- Settles O16: the engine answers a next state; only a `PULL` step records a fault; the accesses start at stripe boundaries
below the stripe limit. -/
theorem engineFaultsOnlyBadChunk : Obligations.EngineFaultsOnlyBadChunk := by
  intro s h
  obtain ⟨t₀, ht₀⟩ := h.engineStep_next
  obtain ⟨-, hbps, hbpc, hsum⟩ := h.config
  have hcap := s.stripeLimit_le_bfCap
  refine ⟨fun f hf => (nomatch ht₀.symm.trans hf), fun t ht => ?_, ?_, fun he => ?_, fun he hlt => ?_⟩
  · rcases engineStep_cases ht with ⟨-, rfl⟩ | ⟨hen, ⟨he, hs⟩ | ⟨he, hs⟩ | ⟨he, hs⟩⟩
    · exact .inl ⟨rfl, rfl⟩
    · exact (enginePull_fault ((engineEnabled_iff s).1 hen).2 hs).imp_right fun hfault => ⟨he, hfault⟩
    · exact .inl ((engineFill_same hs).1)
    · exact .inl ((engineDrain_same hs).1)
  · exact ⟨hbps, by omega, hbpc, by omega, hsum⟩
  · obtain ⟨hrun, hfilling, -⟩ := (frameLegal_of_fill he).1 h.frame
    obtain ⟨hle, -⟩ := State.next_stripe hrun.posAligned hfilling.posLt
    have hcolor : s.cfgBpc.toNat ≤ s.bpo := Nat.le_add_left _ _
    exact ⟨hle, by omega, hcap⟩
  · obtain ⟨hrun, -⟩ := (frameLegal_of_drain he).1 h.frame
    obtain ⟨hle, -⟩ := State.next_stripe hrun.dposAligned hlt
    exact ⟨hle, hcap⟩

/-! ### Cells -/

/-- Between `s` and `t` events are only appended, and no cell is among them (42_engine.md R191). -/
def SendsNoCell (s t : State) : Prop :=
  ∃ sent, t.events = s.events ++ sent ∧ ∀ cell, ExtEvent.imgWrite cell ∉ sent

theorem sendsNoCell_of_eq (h : t.events = s.events) : SendsNoCell s t := ⟨[], by rw [h, List.append_nil], nofun⟩

/-- No command sends a cell; only `ENC_FRAME` sends anything (42_engine.md R170). -/
theorem exec_sendsNoCell {i : Instr} (h : exec i s = .next t) : SendsNoCell s t := by
  by_cases hi : StoresNoBit i
  · obtain ⟨-, -, -, -, -, hevents⟩ := exec_of_storesNoBit h hi
    exact sendsNoCell_of_eq hevents
  · cases i with
    | bfInit cap =>
      obtain ⟨-, -, -, -, -, ⟨-, -, -, hevents⟩, -⟩ := exec_storing_frame (.inl ⟨cap, rfl⟩) h
      exact sendsNoCell_of_eq hevents
    | bfWrite v o w =>
      obtain ⟨-, -, -, -, -, ⟨-, -, -, hevents⟩, -⟩ := exec_storing_frame (.inr ⟨v, o, w, rfl⟩) h
      exact sendsNoCell_of_eq hevents
    | encFrame cap canvas =>
      rcases exec_encFrame_cases h with ⟨f, n, rfl⟩ | ⟨rest, rfl | rfl⟩
      · exact sendsNoCell_of_eq rfl
      · exact sendsNoCell_of_eq rfl
      · exact ⟨_, rfl, by simp⟩
    | bfRead | bcRebind | bcRead | bcExhausted | encConfig | stateRead => exact absurd trivial hi

theorem hostStep_sendsNoCell (h : hostStep s = .next t) : SendsNoCell s t := by
  rcases hostStep_cases h with ⟨-, rfl⟩ | ⟨c, rest, -, ⟨-, -, rfl⟩ | ⟨-, -, rfl⟩ | ⟨-, -, rfl⟩ | ⟨-, i, u, -, he, rfl⟩⟩
  · exact sendsNoCell_of_eq rfl
  · exact sendsNoCell_of_eq rfl
  · exact sendsNoCell_of_eq rfl
  · exact sendsNoCell_of_eq (State.raiseFault_events _ _ _ s.popPort)
  · have hu := exec_sendsNoCell he
    split <;> exact hu

/-- The engine's turn sends no event, or is a `DRAIN` step that sends one cell and counts it (42_engine.md R187). -/
theorem engineStep_events (h : engineStep s = .next t) :
    t.events = s.events ∨
    (s.eng = .drain ∧ s.halted = false ∧ t.cellCount = s.cellCount + 1#32 ∧
      ∃ cell, t.events = s.events ++ [.imgWrite cell]) := by
  rcases engineStep_cases h with ⟨-, rfl⟩ | ⟨hen, ⟨-, hs⟩ | ⟨-, hs⟩ | ⟨he, hs⟩⟩
  · exact .inl rfl
  · exact .inl (enginePull_turns_events hs).2
  · obtain ⟨-, -, -, -, hevents⟩ := engineFill_same hs
    exact .inl hevents
  · rcases engineDrain_cases hs with ⟨-, -, rfl⟩ | ⟨-, rfl⟩
    · exact .inr ⟨he, ((engineEnabled_iff s).1 hen).2, rfl, _, rfl⟩
    · exact .inl rfl

/-- A step that sends no cell meets the rule on cells. -/
theorem SendsNoCell.only_appends (h : SendsNoCell s t) (p : List ExtEvent → Word → Prop) :
    ∃ sent, t.events = s.events ++ sent ∧ ∀ cell, ExtEvent.imgWrite cell ∈ sent → p sent cell :=
  let ⟨sent, hsent, hnone⟩ := h
  ⟨sent, hsent, fun cell hmem => absurd hmem (hnone cell)⟩

/-- Settles O59: reset and the host's turn send no cell, and the engine's turn at most one, in `DRAIN`. -/
theorem cellsWrittenOnlyByDrain : Obligations.CellsWrittenOnlyByDrain := by
  intro s t h
  rcases step_cases h with ⟨-, rfl⟩ | ⟨hturn, h⟩ | ⟨-, h⟩
  · exact (sendsNoCell_of_eq rfl).only_appends _
  · rcases engineStep_events h with hsame | ⟨he, hfree, hcount, cell, hcell⟩
    · exact (sendsNoCell_of_eq hsame).only_appends _
    · refine ⟨_, hcell, fun cell' hmem => ⟨hturn, he, hfree, ?_, hcount⟩⟩
      rw [List.mem_singleton.1 hmem]
  · exact (hostStep_sendsNoCell h).only_appends _

end Sys2Proof.Machine
end

section
/-! Progress (42_engine.md R203): an engine step that does not wait halts the block or lowers `frameMeasure`, so an answered
frame ends. -/

namespace Sys2Proof.Machine

variable {s t : State}

/-! ### The measure in each state of the engine -/

theorem frameMeasure_of_drain (he : s.eng = .drain) : s.frameMeasure = s.stripes - s.dpos.toNat / s.bpo + 1 := by
  rw [State.frameMeasure, he]

theorem frameMeasure_of_pull (he : s.eng = .pull) : s.frameMeasure = 3 * s.readsLeft + s.stripes + 3 := by
  rw [State.frameMeasure, he]

theorem frameMeasure_of_fill (he : s.eng = .fill) :
    s.frameMeasure = 3 * s.readsLeft + s.stripes + 2 + if s.exhausted then 2 else 0 := by
  rw [State.frameMeasure, he]

/-- The drain takes at most a step for each slot and the frame end. -/
theorem frameMeasure_le_of_drain (he : s.eng = .drain) : s.frameMeasure ≤ s.stripes + 1 :=
  (frameMeasure_of_drain he).trans_le (Nat.succ_le_succ (Nat.sub_le _ _))

/-- While a frame runs the measure is positive. -/
theorem frameMeasure_pos (he : s.eng ≠ .idle) : 0 < s.frameMeasure := by
  cases he' : s.eng with
  | idle => exact absurd he' he
  | pull => rw [frameMeasure_of_pull he']; omega
  | fill => rw [frameMeasure_of_fill he']; omega
  | drain => rw [frameMeasure_of_drain he']; omega

/-! ### Slots -/

/-- A position below the stripe limit is in one of the `STRIPES` slots (00_scope.md R12). -/
theorem slot_lt_stripes {p : Nat} (hlt : p < s.stripeLimit) : p / s.bpo < s.stripes :=
  Nat.div_lt_of_lt_mul (by rwa [Nat.mul_comm])

/-- The stripe limit is the boundary after the last slot. -/
theorem slot_stripeLimit (hbpo : 0 < s.bpo) : s.stripeLimit / s.bpo = s.stripes := Nat.mul_div_cancel _ hbpo

/-! ### Reads -/

theorem readsLeft_of_symbols (hphase : s.phase = .fillSymbols) :
    s.readsLeft = s.stripes - s.pos.toNat / s.bpo + s.stripes := by
  rw [State.readsLeft, hphase]

theorem readsLeft_of_colors (hphase : s.phase = .fillColors) : s.readsLeft = s.stripes - s.pos.toNat / s.bpo := by
  rw [State.readsLeft, hphase]

theorem readsLeft_of_complete (hphase : s.phase = .complete) : s.readsLeft = 0 := by
  rw [State.readsLeft, hphase]

@[simp] theorem advance_bpo (s : State) : s.advance.bpo = s.bpo := by simp [State.bpo]

@[simp] theorem advance_stripes (s : State) : s.advance.stripes = s.stripes := by simp [State.stripes]

/-- A stripe advance of a frame still filling leaves one read less (42_engine.md R186). -/
theorem readsLeft_advance (hbpo : 0 < s.bpo) (hrun : s.FrameRunning) (hfilling : s.Filling) :
    s.advance.readsLeft + 1 = s.readsLeft := by
  obtain ⟨-, hword⟩ := State.next_stripe hrun.posAligned hfilling.posLt
  have hslot := slot_lt_stripes hfilling.posLt
  have hnext : (s.pos.toNat + s.bpo) / s.bpo = s.pos.toNat / s.bpo + 1 := Nat.add_div_right _ hbpo
  by_cases hlast : s.pos.toNat + s.bpo = s.stripeLimit
  · rw [hlast, slot_stripeLimit hbpo] at hnext
    cases hphase : s.phase with
    | fillSymbols =>
      have hadv := advance_of_last_symbol hlast hphase
      have hpos : s.advance.pos.toNat = 0 := by rw [hadv]; rfl
      rw [readsLeft_of_symbols hphase, readsLeft_of_colors (by rw [hadv]), hpos, advance_stripes, Nat.zero_div]
      omega
    | fillColors =>
      have hadv := advance_of_last_color hlast hphase
      rw [readsLeft_of_colors hphase, readsLeft_of_complete (by rw [hadv])]
      omega
    | complete => exact absurd hphase hfilling.phase
  · have hadv := advance_of_next hlast
    have hpos : s.advance.pos.toNat = s.pos.toNat + s.bpo := by rw [hadv]; exact hword
    have hphase' : s.advance.phase = s.phase := by rw [hadv]
    cases hphase : s.phase with
    | fillSymbols =>
      rw [readsLeft_of_symbols hphase, readsLeft_of_symbols (hphase'.trans hphase), hpos, advance_stripes, advance_bpo]
      omega
    | fillColors =>
      rw [readsLeft_of_colors hphase, readsLeft_of_colors (hphase'.trans hphase), hpos, advance_stripes, advance_bpo]
      omega
    | complete => exact absurd hphase hfilling.phase

/-! ### The steps -/

/-- Whatever the engine does next, the measure is at most three for each read left, one for each slot, and four. -/
theorem frameMeasure_le (s : State) : s.frameMeasure ≤ 3 * s.readsLeft + s.stripes + 4 := by
  cases he : s.eng with
  | idle => rw [State.frameMeasure, he]; exact Nat.zero_le _
  | pull => rw [frameMeasure_of_pull he]; omega
  | fill => rw [frameMeasure_of_fill he]; split <;> omega
  | drain => exact (frameMeasure_le_of_drain he).trans (by omega)

/-- A chunk of at least one byte and of legal length has bits left. -/
theorem exhausted_bindBuffer {bytes : List Byte} (hpos : 1 ≤ bytes.length) (hlen : bytes.length < 2 ^ 32) :
    (s.bindBuffer bytes).exhausted = false := by
  rw [← Bool.not_eq_true, State.exhausted_iff, State.bindBuffer_bcLen, State.bindBuffer_bcCur, BitVec.toNat_ofNat,
    Nat.mod_eq_of_lt hlen, BitVec.toNat_ofNat]
  omega

/-- A `PULL` step that does not wait halts the block or lowers the measure (42_engine.md R181, R203). -/
theorem enginePull_progress (he : s.eng = .pull) (hs : enginePull s = .next t) (hne : t ≠ s) :
    t.halted = true ∨ t.frameMeasure < s.frameMeasure := by
  rw [frameMeasure_of_pull he]
  rcases enginePull_cases hs with rfl | ⟨gs, ns, rfl⟩ | ⟨gs, ns, n, -, rfl⟩ | ⟨gs, ns, n, hpos, -, hlen, rfl⟩
  · exact absurd rfl hne
  · exact .inr ((frameMeasure_le_of_drain rfl).trans_lt (show s.stripes + 1 < _ by omega))
  · exact .inl (State.halted_raiseFault _ _ _ _)
  · right
    have hbytes : (s.oracles.fecStream.take n.toNat).length = n.toNat := List.length_take_of_le hlen
    have hbits := exhausted_bindBuffer (s := s) (hbytes.symm ▸ hpos) (hbytes.symm ▸ n.isLt)
    rw [frameMeasure_of_fill rfl]
    change 3 * s.readsLeft + s.stripes + 2 + (if (s.bindBuffer _).exhausted then 2 else 0) < _
    rw [hbits, if_neg Bool.false_ne_true]
    omega

/-- A `FILL` step lowers the measure (42_engine.md R183, R203). -/
theorem State.Inv.engineFill_progress (h : s.Inv) (he : s.eng = .fill) (hs : engineFill s = .next t) :
    t.frameMeasure < s.frameMeasure := by
  obtain ⟨hrun, hfilling, -⟩ := (frameLegal_of_fill he).1 h.frame
  have hbpo : 0 < s.bpo := Nat.zero_lt_of_lt h.config.two_le_bpo
  rw [frameMeasure_of_fill he]
  cases hend : s.exhausted with
  | true =>
    cases (engineFill_of_exhausted hend).symm.trans hs
    rw [frameMeasure_of_pull rfl]
    change 3 * s.readsLeft + s.stripes + 3 < 3 * s.readsLeft + s.stripes + 2 + 2
    omega
  | false =>
    cases (h.engineFill_of_bits_left he hend).symm.trans hs
    have hle := frameMeasure_le s.fillSlot.advance
    obtain ⟨m, c, d, hslot⟩ := fillSlot_eq s
    have hread : s.fillSlot.advance.readsLeft + 1 = s.readsLeft := by
      rw [hslot]
      exact readsLeft_advance (s := { s with field := m, bcCur := c, draws := d }) hbpo { hrun with }
        { hfilling with }
    have hstripes : s.fillSlot.advance.stripes = s.stripes := by rw [advance_stripes, hslot]; rfl
    omega

/-- A `DRAIN` step lowers the measure (42_engine.md R187, R203). -/
theorem State.Inv.engineDrain_progress (h : s.Inv) (he : s.eng = .drain) (hs : engineDrain s = .next t) :
    t.frameMeasure < s.frameMeasure := by
  obtain ⟨hrun, -⟩ := (frameLegal_of_drain he).1 h.frame
  have hbpo := h.config.two_le_bpo
  rcases engineDrain_cases hs with ⟨hlt, -, rfl⟩ | ⟨-, rfl⟩
  · obtain ⟨-, hword⟩ := State.next_stripe hrun.dposAligned hlt
    have hslot := slot_lt_stripes hlt
    have hnext : s.drainCell.dpos.toNat / s.bpo = s.dpos.toNat / s.bpo + 1 := by
      rw [State.drainCell_dpos, hword, Nat.add_div_right _ (by omega)]
    rw [frameMeasure_of_drain he, frameMeasure_of_drain (s := s.drainCell) he]
    change s.stripes - s.drainCell.dpos.toNat / s.bpo + 1 < _
    omega
  · exact frameMeasure_pos (by rw [he]; nofun)

/-- Settles O54: micro-step by micro-step. -/
theorem engineStepMakesProgress : Obligations.EngineStepMakesProgress := by
  intro s t h hen hs hne
  rcases engineStep_cases hs with ⟨hoff, -⟩ | ⟨-, ⟨he, hs⟩ | ⟨he, hs⟩ | ⟨he, hs⟩⟩
  · rw [hen] at hoff; cases hoff
  · exact enginePull_progress he hs hne
  · exact .inr (h.engineFill_progress he hs)
  · exact .inr (h.engineDrain_progress he hs)

/-! ### The whole frame -/

/-- The engine's turn leaves the turns to come. -/
theorem engineStep_turns (h : engineStep s = .next t) : t.turns = s.turns := by
  rcases engineStep_cases h with ⟨-, rfl⟩ | ⟨-, ⟨-, h⟩ | ⟨-, h⟩ | ⟨-, h⟩⟩
  · rfl
  · exact (enginePull_turns_events h).1
  · obtain ⟨-, -, hturns, -⟩ := engineFill_same h
    exact hturns
  · exact (engineDrain_same h).2

/-- No step of the run from `s` waits, as long as the engine has been enabled all along. -/
def NeverWaits (s : State) : Prop :=
  ∀ k t, Sys2Proof.core.run k s = .next t →
    (∀ j u, j ≤ k → Sys2Proof.core.run j s = .next u → u.engineEnabled = true) → step t ≠ .next t

/-- The first step of a run that never waits changes the state. -/
theorem NeverWaits.step_ne (h : NeverWaits s) (hen : s.engineEnabled = true) : step s ≠ .next s := by
  refine h 0 s rfl fun j u hj hu => ?_
  obtain rfl := Nat.le_zero.1 hj
  cases hu
  exact hen

/-- A run that never waits goes on as one. -/
theorem NeverWaits.tail (h : NeverWaits s) (hen : s.engineEnabled = true) (hs : step s = .next t) : NeverWaits t := by
  intro k u hu hall
  refine h (k + 1) u ((core_run_succ hs).trans hu) fun j v hj hv => ?_
  cases j with
  | zero => cases hv; exact hen
  | succ j => exact hall j v (Nat.le_of_succ_le_succ hj) ((core_run_succ hs).symm.trans hv)

/-- Settles O55: by strong induction on the measure, which every step that does not wait or halt the block lowers. -/
theorem answeredFrameEnds : Obligations.AnsweredFrameEnds := by
  intro s h hturns hwaits
  change NeverWaits s at hwaits
  induction hm : s.frameMeasure using Nat.strong_induction_on generalizing s with
  | _ m ih =>
    subst hm
    by_cases hen : s.engineEnabled = true
    case neg =>
      rw [engineEnabled_iff, not_and_or, not_not, Bool.not_eq_false] at hen
      exact ⟨0, s, Nat.zero_le _, rfl, hen⟩
    case pos =>
      have hpos := frameMeasure_pos ((engineEnabled_iff s).1 hen).1
      obtain ⟨t, ht⟩ := h.engineStep_next
      have hs := (step_of_no_turns hturns hen).trans ht
      have hne : t ≠ s := fun e => hwaits.step_ne hen (e ▸ hs)
      rcases engineStepMakesProgress s t h hen ht hne with hhalt | hlt
      · exact ⟨1, t, hpos, core_run_succ hs, .inr hhalt⟩
      · obtain ⟨k, u, hk, hu, hdone⟩ := ih _ hlt t (engineStep_keeps_inv h ht) ((engineStep_turns ht).trans hturns)
          (hwaits.tail hen hs) rfl
        exact ⟨k + 1, u, by omega, (core_run_succ hs).trans hu, hdone⟩

end Sys2Proof.Machine
end

section
/-! `STATE_READ` (43_state_access.md R220, R221): its post-state in full, and the numbers the registers that are not words
read as. -/

namespace Sys2Proof.Machine

/-- The whole effect of `STATE_READ`, which has no check: the register's value in `RES`, and a draw used up where the
register read is one no command has written (43_state_access.md R221, 10_state.md R24). -/
theorem exec_stateRead (r : Word) (s : State) :
    exec (.stateRead r) s = .next { s with
      res := s.readReg r.toNat, resWritten := true
      draws := if s.readDraws r.toNat then s.draws + 1 else s.draws } := by
  have heffect : exec (.stateRead r) s = .next (commandEffect (.stateRead r) s) := exec_of_commandCheck rfl
  rw [heffect, commandEffect]
  split <;> rfl

/-- With `RES` and `FLAG` written, no read uses a draw (10_state.md R24). -/
theorem State.readDraws_of_written {s : State} (hres : s.resWritten = true) (hflag : s.flagWritten = true) (n : Nat) :
    s.readDraws n = false := by
  simp [State.readDraws, hres, hflag]

/-- A one-bit register reads as 0 or 1 (43_state_access.md R221, `zext_32`). -/
theorem ofNat_toNat_bool (b : Bool) : BitVec.ofNat 32 b.toNat = if b then 1#32 else 0#32 := by
  cases b <;> rfl

/-- `BPO` reads as the sum of the two configured widths (10_state.md R22). -/
theorem State.ofNat_bpo (s : State) : BitVec.ofNat 32 s.bpo = s.cfgBps + s.cfgBpc := by
  simp [State.bpo, BitVec.ofNat_add]

theorem Eng.ofNat_code (e : Eng) :
    BitVec.ofNat 32 e.code = match e with | .idle => 0#32 | .pull => 1#32 | .fill => 2#32 | .drain => 3#32 := by
  cases e <;> rfl

theorem Phase.ofNat_code (p : Phase) :
    BitVec.ofNat 32 p.code = match p with | .fillSymbols => 0#32 | .fillColors => 1#32 | .complete => 2#32 := by
  cases p <;> rfl

theorem FrameStatus.ofNat_code (f : FrameStatus) :
    BitVec.ofNat 32 f.code =
      match f with | .noneYet => 0#32 | .frame => 1#32 | .endOfStream => 2#32 | .busy => 3#32 := by
  cases f <;> rfl

/-- The numbers from 19 up are reserved and read as 0 (43_state_access.md R220). -/
theorem State.readReg_reserved (s : State) {n : Nat} (hn : 19 ≤ n) : s.readReg n = 0#32 := by
  obtain ⟨k, rfl⟩ := Nat.exists_eq_add_of_le' hn
  rfl

/-- Settles O43: `RES` is `readReg r`, which is the register itself or its code as a word. -/
theorem stateReadTable : Obligations.StateReadTable := by
  intro r s
  refine ⟨_, exec_stateRead r s, ?_⟩
  exact ⟨fun h => h ▸ rfl, fun h => h ▸ rfl, fun h => h ▸ rfl, fun h => h ▸ s.ofNat_bpo,
    fun h => h ▸ ofNat_toNat_bool s.bfValid, fun h => h ▸ rfl,
    fun h => h ▸ ofNat_toNat_bool s.bcBound, fun h => h ▸ rfl, fun h => h ▸ rfl,
    fun h => h ▸ Eng.ofNat_code s.eng, fun h => h ▸ Phase.ofNat_code s.phase, fun h => h ▸ rfl, fun h => h ▸ rfl,
    fun h => h ▸ FrameStatus.ofNat_code s.frameStatus, fun h => h ▸ rfl, fun h => h ▸ rfl,
    fun h => h ▸ ofNat_toNat_bool _, fun h => h ▸ rfl, fun h => h ▸ rfl, fun h => s.readReg_reserved h⟩

/-- Settles O44: the post-state of `exec_stateRead` names the fields that change, and a written `RES` reads as itself. -/
theorem stateReadChangesOnlyRes : Obligations.StateReadChangesOnlyRes := by
  intro r s
  refine ⟨_, exec_stateRead r s, rfl, fun hres hflag => ?_, fun hres hr => ?_⟩
  · exact if_neg (by simp [State.readDraws_of_written hres hflag])
  · subst hr
    exact if_pos hres

end Sys2Proof.Machine
end

section
/-! The fault record and the halted block (60_exceptions.md R231, R233, R234): faults are precise, the first stays until reset,
and a halted block does nothing but answer legal `STATE_READ`s. -/

namespace Sys2Proof.Machine

variable {s t : State} {c : Transaction} {rest : List Transaction}

/-- Whether the block is halted is read from the fault record alone (60_exceptions.md R233). -/
theorem SameFault.halted_eq (h : SameFault s t) : t.halted = s.halted :=
  congrArg (fun word : Word => word.getLsbD 31) h.1

/-- Settles O60: a command whose check passes leaves the fault record, so it was the check that failed, and what it raises is
recorded with nothing else changed. -/
theorem commandFaultsArePrecise : Obligations.CommandFaultsArePrecise := by
  intro i s t hfree h hhalt
  cases hcheck : commandCheck i s with
  | none =>
    have hsame := exec_sameFault_of_check_passes h hcheck
    rw [hsame.halted_eq, hfree] at hhalt
    cases hhalt
  | some raised =>
    rw [exec_of_commandCheck_fails hfree hcheck rfl] at h
    obtain rfl := Host.Outcome.next.inj h
    exact ⟨rfl, faultWord_opcode false _ _, faultWord_engine false _ _, faultWord_reserved false _ _⟩

/-! ### The halted block -/

/-- The engine's turn in a halted block (42_engine.md R180). -/
theorem engineStep_of_halted (hhalt : s.halted = true) : engineStep s = .next s :=
  if_pos (by simp [State.engineEnabled, hhalt])

/-- The host's turn with no command on the port. -/
theorem hostStep_nil (hp : s.port = []) : hostStep s = .next s := by
  simp only [hostStep, hp]

/-- A halted block passes over every command but a legal `STATE_READ`: one of another opcode is not accepted, and the fault of
an illegal `STATE_READ` word is not recorded (60_exceptions.md R233). -/
theorem hostStep_passed_over (hhalt : s.halted = true) (hp : s.port = c :: rest)
    (hd : ∀ r, decode c ≠ .instr (.stateRead r)) : hostStep s = .next s.popPort := by
  cases ha : s.accepts c with
  | false => rw [hostStep_not_accepted hp ha, if_pos hhalt]
  | true =>
    have hopc : c.opc = 0x31#8 := ((accepts_iff c s).1 ha).resolve_right fun h => by simp [hhalt] at h
    obtain ⟨e, he, hne⟩ := (decode_of_stateRead_opc hopc).resolve_left fun ⟨r, hr⟩ => hd r hr
    rw [hostStep_illegal hp ha he hne, State.raiseFault_halted (s := s.popPort) hhalt]

/-- A legal `STATE_READ` at the head of the port executes in every state and leaves the port (30_encoding.md R80). -/
theorem hostStep_stateRead {r : Word} (hp : s.port = c :: rest) (hd : decode c = .instr (.stateRead r)) :
    hostStep s = .next { s with
      res := s.readReg r.toNat, resWritten := true
      draws := if s.readDraws r.toNat then s.draws + 1 else s.draws
      port := rest } := by
  rw [hostStep_instr hp (accepts_stateRead hd s) hd (exec_stateRead r s)]
  simp [awaitsSource, State.popPort, hp]

/-- Settles O8: the engine's turn and the host's, with the command passed over or executed. -/
theorem haltedBlockOnlyReadsState : Obligations.HaltedBlockOnlyReadsState := by
  intro s hhalt
  refine ⟨fun hturn => ?_, fun c rest hturn hp => ⟨fun hd => ?_, fun r hd => ?_⟩⟩
  · rw [step_engine hturn, engineStep_of_halted (s := s.nextTurn) hhalt]
  · exact ⟨_, (step_host hturn).trans (hostStep_passed_over (s := s.nextTurn) hhalt hp hd), rfl⟩
  · exact ⟨_, (step_host hturn).trans (hostStep_stateRead (s := s.nextTurn) hp hd), rfl, rfl, rfl, rfl⟩

/-- In a halted block a step changes no more than `RES`, the draws used to read it, the port and the turns, unless it is the
reset. -/
theorem step_of_halted (hhalt : s.halted = true) (hturn : s.turn ≠ .reset) (h : step s = .next t) :
    ∃ res written draws port turns,
      t = { s with res := res, resWritten := written, draws := draws, port := port, turns := turns } := by
  rcases step_cases h with ⟨hreset, -⟩ | ⟨-, h⟩ | ⟨-, h⟩
  · exact absurd hreset hturn
  · rw [engineStep_of_halted (s := s.nextTurn) hhalt] at h
    exact ⟨_, _, _, _, _, (Host.Outcome.next.inj h).symm⟩
  · cases hp : s.port with
    | nil =>
      rw [hostStep_nil (s := s.nextTurn) hp] at h
      exact ⟨_, _, _, _, _, (Host.Outcome.next.inj h).symm⟩
    | cons c rest =>
      by_cases hd : ∃ r, decode c = .instr (.stateRead r)
      · obtain ⟨r, hd⟩ := hd
        rw [hostStep_stateRead (s := s.nextTurn) hp hd] at h
        exact ⟨_, _, _, _, _, (Host.Outcome.next.inj h).symm⟩
      · rw [hostStep_passed_over (s := s.nextTurn) hhalt hp (not_exists.1 hd)] at h
        exact ⟨_, _, _, _, _, (Host.Outcome.next.inj h).symm⟩

/-- Settles O9: the fault record is not among what `step_of_halted` lets change, and reset clears it. -/
theorem onlyResetClearsFault : Obligations.OnlyResetClearsFault := by
  intro s t hhalt h
  constructor
  · intro hturn
    obtain ⟨res, written, draws, port, turns, rfl⟩ := step_of_halted hhalt hturn h
    exact ⟨⟨rfl, rfl⟩, hhalt⟩
  · intro hturn
    rw [step_reset hturn] at h
    obtain rfl := Host.Outcome.next.inj h
    exact ⟨rfl, rfl, BitVec.getLsbD_zero⟩

/-- Settles O10: every register but `RES` is outside what `step_of_halted` lets change. -/
theorem haltedStepChangesOnlyRes : Obligations.HaltedStepChangesOnlyRes := by
  intro s t hhalt hturn h
  obtain ⟨res, written, draws, port, turns, rfl⟩ := step_of_halted hhalt hturn h
  exact ⟨⟨rfl, rfl, rfl, rfl⟩, ⟨rfl, rfl, fun _ => rfl⟩, ⟨rfl, rfl, rfl, rfl⟩, ⟨rfl, rfl, rfl, rfl, rfl, rfl⟩, ⟨rfl, rfl⟩,
    ⟨rfl, rfl⟩, rfl, rfl⟩

end Sys2Proof.Machine
end

section
/-! Reset and what comes after a frame (70_reset_and_hazards.md R260, R261, R266): reset leaves a block that waits, and a frame
end leaves nothing to read or write. -/

namespace Sys2Proof.Machine

variable {s : State}

/-! ### The block after reset -/

/-- `RES` that no command has written reads as a draw (10_state.md R24). -/
theorem readReg_res_of_unwritten (h : s.resWritten = false) : s.readReg 15 = Config.drawWord s.draws :=
  if_neg (by rw [h]; nofun)

/-- `FLAG` that no command has written reads as a draw (10_state.md R24). -/
theorem readReg_flag_of_unwritten (h : s.flagWritten = false) :
    s.readReg 16 = BitVec.ofNat 32 (Config.drawFlag s.draws).toNat := by
  rw [State.readReg, h, if_neg nofun]

/-- The engine's turn in an idle block (42_engine.md R180). -/
theorem engineStep_of_idle (hidle : s.eng = .idle) : engineStep s = .next s :=
  if_pos (by simp [State.engineEnabled, hidle])

/-- An idle block with no command on the port waits, on the host's turn and on the engine's. -/
theorem takeTurn_waits (hidle : s.eng = .idle) (hport : s.port = []) {who : Turn} (hwho : who ≠ .reset) :
    takeTurn who s = .next s := by
  cases who with
  | host => exact hostStep_nil hport
  | engine => exact engineStep_of_idle hidle
  | reset => exact absurd rfl hwho

/-- Settles O11: the step is `applyReset`, whose registers are those of `resetWith`; `RES` and `FLAG` are unwritten after it,
and the idle block waits. -/
theorem resetSetsEveryRegister : Obligations.ResetSetsEveryRegister := by
  intro s hturn
  refine ⟨_, step_reset hturn, rfl, rfl, rfl, rfl, rfl, rfl, rfl, rfl, rfl, rfl, rfl, rfl, rfl, rfl, rfl, rfl, rfl, rfl, rfl,
    ?_, ?_, fun hport who hwho => ?_⟩
  · exact readReg_res_of_unwritten rfl
  · exact readReg_flag_of_unwritten rfl
  · exact takeTurn_waits rfl hport hwho

/-- Settles O12: `applyReset` sets the engine idle and leaves the events and the answers to come. -/
theorem resetAbandonsFrame : Obligations.ResetAbandonsFrame :=
  fun s hturn _ => ⟨_, step_reset hturn, rfl, rfl, s.nextTurn.applyReset_events, s.nextTurn.applyReset_oracles⟩

/-- Settles O13: the parameters are legal whatever the unknown numbers are, and the registers are those of `resetWith`. -/
theorem stateResetRegisters : Obligations.StateResetRegisters :=
  ⟨Config.params_ok, rfl, rfl, rfl, rfl, rfl, rfl, rfl, rfl, rfl, rfl, rfl, rfl, rfl, rfl, rfl, rfl, rfl, rfl⟩

/-- The reset state of a machine with legal parameters meets the invariant (70_reset_and_hazards.md R260). -/
theorem inv_resetWith {p : Params} (hp : p.Ok) : (State.resetWith p).Inv := by
  have ⟨_, _, hecc, hwidths⟩ := hp
  exact {
    params := hp
    config := ⟨hecc, hwidths⟩
    field := fieldLegal_of_absent rfl rfl rfl
    cursor := cursorLegal_of_empty rfl rfl rfl
    frame := (frameLegal_of_idle rfl).2 nofun
    fault := faultLegal_of_none rfl rfl }

/-- Settles O14: the unknown parameters are legal. -/
theorem resetMeetsInvariant : Obligations.ResetMeetsInvariant := inv_resetWith Config.params_ok

/-! ### The block after a frame -/

/-- Settles O52: a frame end leaves no BitField and no bound buffer, so `BfCheck` and the checks of the BitCursor commands fail
with their first cause. -/
theorem afterFrameAccessFaults : Obligations.AfterFrameAccessFaults := by
  intro s t v o w he hfree hlimit hs
  rw [engineStep_drain he hfree, engineDrain_of_limit hlimit] at hs
  obtain rfl := Host.Outcome.next.inj hs
  have hend : s.endFrame.halted = false := hfree
  obtain ⟨hnoField, -⟩ := bfCheckFaultsInOrder v o w s.endFrame hend
  obtain ⟨hunbound, -⟩ := bcCheckFaultsInOrder w s.endFrame hend
  obtain ⟨hwrite, hread⟩ := hnoField rfl
  exact ⟨hread, hwrite, hunbound rfl, (bcExhaustedReports s.endFrame).2 hend rfl⟩

end Sys2Proof.Machine
end
